-- ==== Sys2Proof/Word.lean ====
section
/-! DEFINITION. The word types of the engine: what a register, a command word and its fields are. -/

namespace Sys2Proof

/-- The content of a stack register, a memory slot or the DATA bus: 128 bits (REG_BITS, rule R6). -/
abbrev Word := BitVec 128

/-- The command word on the CMD port: 32 bits (rules R70, R71). -/
abbrev CmdWord := BitVec 32

/-- One of the two 8-bit fields OP and ARG of a command word (rules R71, R72). -/
abbrev Field8 := BitVec 8

end Sys2Proof
end

