-- ==== Sys2Proof/Syntax.lean ====
section
/-! DEFINITION. The commands of the engine (rule R74): what the host presents, the four formats, and one constructor of
`Instr` for each of the 28 rows of the opcode table. -/

namespace Sys2Proof

/-- What the host presents in one command transaction: the command word and the data operand (rules R70, R71, R79). -/
structure Command where
  /-- CMD[31:0] -/
  cmd : CmdWord
  /-- DATA[127:0] -/
  data : Word
  deriving DecidableEq, Repr

/-- The four command formats, told apart by the fields the opcode uses (rule R71). -/
inductive Format where
  /-- `N`: no operand; ARG must be 0, DATA is ignored. -/
  | n
  /-- `D`: the operand is DATA; ARG must be 0. -/
  | d
  /-- `A`: the operand is ARG; DATA is ignored. -/
  | a
  /-- `AD`: the operands are ARG, a slot index, and DATA. -/
  | ad
  deriving DecidableEq, Repr

/-- The 28 commands (rule R74), with the operands their formats carry. An operand is the field as it is presented: an
ARG that names no slot, size or radix is a legal encoding whose command raises an error (rules R52, R72). -/
inductive Instr where
  /-- PUSH value (rule R101) -/
  | push (data : Word)
  /-- ENTER (rule R102) -/
  | enter
  /-- DROP (rule R103) -/
  | drop
  /-- SWAP (rule R104) -/
  | swap
  /-- ROLL (rule R105) -/
  | roll
  /-- ADD (rule R121) -/
  | add
  /-- SUB (rule R122) -/
  | sub
  /-- MUL (rule R123) -/
  | mul
  /-- DIV (rule R124) -/
  | div
  /-- AND (rule R151) -/
  | and
  /-- OR (rule R152) -/
  | or
  /-- XOR (rule R153) -/
  | xor
  /-- NOT (rule R154) -/
  | not
  /-- SL (rule R163) -/
  | sl
  /-- SR (rule R164) -/
  | sr
  /-- ASR (rule R165) -/
  | asr
  /-- RL (rule R166) -/
  | rl
  /-- RR (rule R167) -/
  | rr
  /-- SLY (rule R168) -/
  | sly
  /-- SRY (rule R169) -/
  | sry
  /-- ASRY (rule R170) -/
  | asry
  /-- RLY (rule R171) -/
  | rly
  /-- RRY (rule R172) -/
  | rry
  /-- SETBASE radix (rule R190) -/
  | setbase (arg : Field8)
  /-- SETWS n (rule R191) -/
  | setws (arg : Field8)
  /-- STO i (rule R201) -/
  | sto (arg : Field8)
  /-- STOV i, value (rule R202) -/
  | stov (arg : Field8) (data : Word)
  /-- RCL i (rule R203) -/
  | rcl (arg : Field8)
  deriving DecidableEq, Repr

end Sys2Proof
end

