-- ==== Sys2Proof/Decode.lean ====
section
/-! DEFINITION. The command interface's encoding (30_encoding.md): the fields of a command word, the opcode map as a
table of rows, the decoder (total on every command word, rejecting by name), and after it the encoder, written from the
same rules but not through the table. -/

namespace Sys2Proof

/-! ### Fields of a command word (rule R71) -/

/-- OP = CMD[31:24]. -/
def opField (cmd : CmdWord) : Field8 := cmd.extractLsb' 24 8

/-- ARG = CMD[23:16], never scaled or extended (rule R72). -/
def argField (cmd : CmdWord) : Field8 := cmd.extractLsb' 16 8

/-- RSV = CMD[15:0], which must be 0 (rule R75). -/
def rsvField (cmd : CmdWord) : BitVec 16 := cmd.extractLsb' 0 16

/-- The formats whose ARG field is an operand; in the others it must be 0 (rules R71, R75). -/
def Format.usesArg : Format → Bool
  | .n => false
  | .d => false
  | .a => true
  | .ad => true

/-! ### The opcode map (rule R74) -/

/-- One row of the opcode map: the OP value, the format, and the command, given the fields ARG and DATA. -/
structure OpRow where
  /-- the value of CMD[31:24] -/
  op : Field8
  /-- which fields the command uses -/
  format : Format
  /-- the command, from ARG and DATA -/
  build : Field8 → Word → Instr

/-- A row without operands (format N). -/
def rowN (op : Field8) (i : Instr) : OpRow := ⟨op, .n, fun _ _ => i⟩

/-- 0x0_: the stack commands. -/
def opRowsStack : List OpRow :=
  [⟨0x01, .d, fun _ data => .push data⟩, rowN 0x02 .enter, rowN 0x03 .drop, rowN 0x04 .swap, rowN 0x05 .roll]

/-- 0x1_: the arithmetic commands. -/
def opRowsArith : List OpRow := [rowN 0x10 .add, rowN 0x11 .sub, rowN 0x12 .mul, rowN 0x13 .div]

/-- 0x2_: the bitwise commands. -/
def opRowsBitwise : List OpRow := [rowN 0x20 .and, rowN 0x21 .or, rowN 0x22 .xor, rowN 0x23 .not]

/-- 0x30 to 0x34: the unary shifts and rotates. -/
def opRowsUnary : List OpRow :=
  [rowN 0x30 .sl, rowN 0x31 .sr, rowN 0x32 .asr, rowN 0x33 .rl, rowN 0x34 .rr]

/-- 0x38 to 0x3C: the binary shifts and rotates. -/
def opRowsBinary : List OpRow :=
  [rowN 0x38 .sly, rowN 0x39 .sry, rowN 0x3A .asry, rowN 0x3B .rly, rowN 0x3C .rry]

/-- 0x4_ and 0x5_: the configuration and memory commands. -/
def opRowsArg : List OpRow :=
  [⟨0x40, .a, fun arg _ => .setbase arg⟩, ⟨0x41, .a, fun arg _ => .setws arg⟩, ⟨0x50, .a, fun arg _ => .sto arg⟩,
   ⟨0x51, .ad, fun arg data => .stov arg data⟩, ⟨0x52, .a, fun arg _ => .rcl arg⟩]

/-- The opcode map of rule R74, 28 rows. -/
def opTable : List OpRow :=
  opRowsStack ++ opRowsArith ++ opRowsBitwise ++ opRowsUnary ++ opRowsBinary ++ opRowsArg

/-- The mask column of the opcode table: the bits of CMD that a row fixes, all but ARG where the format uses it
(rules R71, R82). -/
def OpRow.mask (row : OpRow) : CmdWord := if row.format.usesArg then 0xFF00FFFF else 0xFFFFFFFF

/-- The match column of the opcode table: OP in its place, 0 elsewhere (rules R71, R82). -/
def OpRow.pattern (row : OpRow) : CmdWord := row.op ++ 0#8 ++ 0#16

/-! ### Decoding (rule R82) -/

/-- Why a command word is illegal. The engine reports every one of them as `IllegalCommand` (rule R223); the names and the
order in which they are looked for reach no state (log entry 15). -/
inductive DecodeError where
  /-- OP is not one of the 28 values of the opcode map (rule R77). -/
  | undefinedOp
  /-- RSV is not 0 (rule R75). -/
  | reservedRsv
  /-- ARG is not 0 in format N or D (rule R75). -/
  | reservedArg
  deriving DecidableEq, Repr

/-- Decoding of a command whose fields have been pulled out: the row of OP, then the reserved fields. -/
def decodeFields (op arg : Field8) (rsv : BitVec 16) (data : Word) : Except DecodeError Instr :=
  match opTable.find? (fun row => row.op == op) with
  | none => .error .undefinedOp
  | some row =>
    if rsv ≠ 0 then .error .reservedRsv
    else if row.format.usesArg = false ∧ arg ≠ 0 then .error .reservedArg
    else .ok (row.build arg data)

/-- The decoder: total on every command word; DATA is only carried into the operand of PUSH and STOV
(rules R73, R76, R82). -/
def decode (cmd : CmdWord) (data : Word) : Except DecodeError Instr :=
  decodeFields (opField cmd) (argField cmd) (rsvField cmd) data

/-! ### Encoding (rules R71, R74, R80) -/

/-- A command word from OP and ARG, with RSV = 0. -/
def packCmd (op arg : Field8) : CmdWord := op ++ arg ++ 0#16

/-- A command of format N: ARG and DATA are 0 (rule R80). -/
def packN (op : Field8) : Command := ⟨packCmd op 0, 0⟩

/-- The encoder: the command an instruction is presented as (rules R71, R74), with ARG and DATA 0 where its format does
not use them (rule R80). -/
def encode : Instr → Command
  | .push data => ⟨packCmd 0x01 0, data⟩
  | .enter => packN 0x02
  | .drop => packN 0x03
  | .swap => packN 0x04
  | .roll => packN 0x05
  | .add => packN 0x10
  | .sub => packN 0x11
  | .mul => packN 0x12
  | .div => packN 0x13
  | .and => packN 0x20
  | .or => packN 0x21
  | .xor => packN 0x22
  | .not => packN 0x23
  | .sl => packN 0x30
  | .sr => packN 0x31
  | .asr => packN 0x32
  | .rl => packN 0x33
  | .rr => packN 0x34
  | .sly => packN 0x38
  | .sry => packN 0x39
  | .asry => packN 0x3A
  | .rly => packN 0x3B
  | .rry => packN 0x3C
  | .setbase arg => ⟨packCmd 0x40 arg, 0⟩
  | .setws arg => ⟨packCmd 0x41 arg, 0⟩
  | .sto arg => ⟨packCmd 0x50 arg, 0⟩
  | .stov arg data => ⟨packCmd 0x51 arg, data⟩
  | .rcl arg => ⟨packCmd 0x52 arg, 0⟩

/-! ### The opcode table's numbering of bits -/

/-- DESIGN CHOICE (log entry 3): the bits of a table row laid out as a command, CMD in bits 31..0 and DATA in the bits
above; a bit at or above `nbits` is 0. The table gives every row 32 bits, so DATA is 0. -/
def commandOfTableWord (nbits w : Nat) : Command :=
  ⟨BitVec.ofNat 32 (w % 2 ^ nbits), BitVec.ofNat 128 ((w % 2 ^ nbits) / 2 ^ 32)⟩

/-- What the decoder reads from an instruction whose bits are `w`, numbered as the opcode table numbers them. -/
def decodeTableWord (nbits w : Nat) : Option Instr :=
  match decode (commandOfTableWord nbits w).cmd (commandOfTableWord nbits w).data with
  | .ok i => some i
  | .error _ => none

end Sys2Proof
end

