-- ==== Sys2Proof/Config.lean ====
section
/-! DEFINITION. The implementation parameters of rule R6: what is fixed for this hardware, and the one parameter the
spec leaves open. No instruction of this hardware has an undefined result, so there is no free value here. -/

namespace Sys2Proof

/-- NSLOTS (rule R6): the number of memory slots, M0 to M15. -/
def Config.nslots : Nat := 16

/-- WS_MIN (rule R6): the smallest word size. -/
def Config.wsMin : Nat := 1

/-- WS_MAX (rule R6): the largest word size. -/
def Config.wsMax : Nat := 128

/-- RESET_WORDSIZE (rule R6, decision D22): the word size after reset, 64 for this hardware (log entry 9). -/
def Config.resetWordSize : Field8 := 64

/-- RESET_BASE (rule R6, decision D22): the base after reset, 10 for this hardware (log entry 9). -/
def Config.resetBase : Field8 := 10

/-- BASES (rule R6): the four radix values, in the order of rule R24. -/
def Config.bases : List Field8 := [2, 8, 10, 16]

/-- CMD_LATENCY (rules R6, R256): how many cycles the command of an opcode takes from acceptance to completion.
OPEN, finite, and it may differ between commands; it has no body, and no definition of the model reads it, as no rule
of the spec depends on it (log entry 10). -/
opaque Config.cmdLatency : Field8 → Nat

end Sys2Proof
end

