-- ==== Sys2Proof/Machine/State.lean ====
section
/-! DEFINITION. The state of the engine as plain data (10_state.md), the state after reset (rule R33), and the ways a
step can end. -/

namespace Sys2Proof.Machine

/-- A memory slot that holds something: its index and its 128-bit value. The slot is the smallest addressable unit;
the slot space has no bytes (rules R52, R54; log entry 7). -/
abbrev Slot := Nat × Word

/-- The slot file M0 to M15 (rule R31) in canonical form: indices strictly rising, no entry that holds 0, which is what
an unlisted slot reads as (the reset contents, rule R33). -/
abbrev Memory := List Slot

/-- One sample of the engine's input ports (rule R70), driven by the host for one step. -/
structure PortInput where
  /-- CMD[31:0] -/
  cmd : CmdWord
  /-- DATA[127:0] -/
  data : Word
  /-- CMD_VALID: a command is presented. -/
  cmdValid : Bool
  /-- RST: reset is asserted during this step, before or after the command, if any, is accepted (rules R250, R251). -/
  rst : Bool
  deriving DecidableEq, Repr

/-- The error kinds of rule R221, each raised by the command its docstring names and by no other. -/
inductive ErrorKind where
  /-- DIV with Y = 0 (rule R124) -/
  | divideByZero
  /-- STO, STOV or RCL with ARG > 15 (rule R200) -/
  | invalidMemoryIndex
  /-- SETWS with ARG = 0 or ARG > 128 (rule R191) -/
  | invalidWordSize
  /-- SETBASE with ARG not in {2, 8, 10, 16} (rule R190) -/
  | invalidBase
  /-- an illegal command word (rule R223) -/
  | illegalCommand
  deriving DecidableEq, Repr

/-- Everything the spec gives the machine (rule R32), and the interface of rule R70. WS, BASE and ERR are as wide as the
spec makes them; the values they never hold are ruled out by an invariant (log entry 14). -/
structure State where
  /-- stack register X, the top of the stack (rule R20) -/
  x : Word
  /-- stack register Y (rule R20) -/
  y : Word
  /-- stack register Z (rule R20) -/
  z : Word
  /-- stack register T (rule R20) -/
  t : Word
  /-- the memory slots M0 to M15 (rule R31) -/
  mem : Memory
  /-- WS, the word size: 8 bits, 1 to 128 (rule R23) -/
  ws : Field8
  /-- BASE, the radix: 8 bits, one of 2, 8, 10, 16 (rule R24) -/
  base : Field8
  /-- the Carry flag C (rule R26) -/
  c : Bool
  /-- the Overflow flag V (rule R26) -/
  v : Bool
  /-- the lift-disabled mark R (rule R25) -/
  r : Bool
  /-- ERR, the result code of the last command: 4 bits (rule R29) -/
  err : BitVec 4
  /-- CMD_DONE: the last accepted command has completed (rule R70; log entry 4) -/
  cmdDone : Bool
  /-- the model's own field: the samples the host has still to drive on the input ports, oldest first (log entry 2) -/
  host : List PortInput
  deriving DecidableEq, Repr

/-- Why the machine stops: never. No condition of this hardware stops the engine (rule R222: an error completes the
command and the next one is accepted normally), so there is no fault to name. -/
inductive Fault where
  deriving DecidableEq, Repr

/-- Why an instruction has no meaning. -/
inductive Refusal where
  /-- Raised by an arm of `exec` for an instruction that has no meaning yet; no arm does, every instruction has one.
  Safe: the model would stop where the hardware goes on. -/
  | notModelled (mnemonic : String)
  deriving DecidableEq, Repr

/-- The state right after reset (rules R33, R250): registers, slots, flags, mark and ERR are 0, WS and BASE are the
parameters of rule R6. CMD_DONE low and no sample pending are the model's choices (log entries 2 and 4). -/
def State.reset : State where
  x := 0
  y := 0
  z := 0
  t := 0
  mem := []
  ws := Config.resetWordSize
  base := Config.resetBase
  c := false
  v := false
  r := false
  err := 0
  cmdDone := false
  host := []

end Sys2Proof.Machine
end

