-- ==== Sys2Proof/Machine/Width.lean ====
section
/-! DEFINITION. The word size at work: masks, wrapping and the signed reading of a value (rules R7 to R9). `n` is a word
size, `WS` read as a natural number. -/

namespace Sys2Proof.Machine

/-- MASK(n) = 2^n - 1 (rule R8), the 128-bit all-ones value at n = 128. -/
def mask (n : Nat) : Word := BitVec.ofNat 128 (2 ^ n - 1)

/-- To mask a value: `v & MASK(n)` (rule R8). -/
def maskTo (n : Nat) (v : Word) : Word := v &&& mask n

/-- wrap(r) = r mod 2^n, in [0, 2^n) also for a negative r (rules R7, R8). -/
def wrap (n : Nat) (r : Int) : Word := BitVec.ofNat 128 (r % ((2 ^ n : Nat) : Int)).toNat

/-- The sign bit v[n-1] (rule R9). -/
def signBit (n : Nat) (v : Word) : Bool := v.getLsbD (n - 1)

/-- The signed interpretation sgn_n(v): v - 2^n if v[n-1] = 1, else v (rule R9). -/
def sgn (n : Nat) (v : Word) : Int := if signBit n v then (v.toNat : Int) - ((2 ^ n : Nat) : Int) else (v.toNat : Int)

/-- Membership of SRANGE(n) = [-2^(n-1), 2^(n-1) - 1] (rule R9). -/
def inSRange (n : Nat) (i : Int) : Bool :=
  decide (-((2 ^ (n - 1) : Nat) : Int) ≤ i) && decide (i ≤ ((2 ^ (n - 1) : Nat) : Int) - 1)

end Sys2Proof.Machine
end

