-- ==== Sys2Proof/Machine/Ops.lean ====
section
/-! DEFINITION. The named operations over the registers and the slot file, completion of a command, and the one
operation by which every error is reported. Every right-hand side reads the state before the command (rule R10). -/

namespace Sys2Proof.Machine

/-! ### The slot file (20_memory.md) -/

/-- What slot `i` holds; an unlisted slot holds 0. -/
def Memory.read : Memory → Nat → Word
  | [], _ => 0#128
  | (j, w) :: rest, i => if i = j then w else Memory.read rest i

/-- Replace the whole content of slot `i`, keeping the canonical form: the list stays sorted, and a slot that is to hold
0 is not listed. -/
def Memory.write : Memory → Nat → Word → Memory
  | [], i, v => if v = 0#128 then [] else [(i, v)]
  | (j, w) :: rest, i, v =>
    if i < j then (if v = 0#128 then (j, w) :: rest else (i, v) :: (j, w) :: rest)
    else if i = j then (if v = 0#128 then rest else (i, v) :: rest)
    else (j, w) :: Memory.write rest i v

/-- Mask every slot to size `n`, as the loop of SETWS does for slots 0 to 15 (rule R191); a slot that then holds 0 is no
longer listed. An unlisted slot holds 0, which masking leaves. -/
def Memory.remask (n : Nat) : Memory → Memory
  | [] => []
  | (j, w) :: rest =>
    if maskTo n w = 0#128 then Memory.remask n rest else (j, maskTo n w) :: Memory.remask n rest

/-- Indices strictly rising from `lo` on, all of them in the slot map, and no entry that holds 0. -/
def Memory.wfFrom : Nat → Memory → Bool
  | _, [] => true
  | lo, (j, w) :: rest =>
    decide (lo ≤ j) && decide (j < Config.nslots) && decide (w ≠ 0#128) && Memory.wfFrom (j + 1) rest

/-- The canonical form of the slot file. -/
def Memory.wf (m : Memory) : Bool := Memory.wfFrom 0 m

/-- SlotRead(i) (rule R50): the value held in slot Mi; no side effect. -/
def slotRead (i : Nat) (s : State) : Word := Memory.read s.mem i

/-- SlotWrite(i, v) (rule R51): replace the whole content of slot Mi; no other slot changes. -/
def slotWrite (i : Nat) (v : Word) (s : State) : State := { s with mem := Memory.write s.mem i v }

/-! ### The stack (40_stack.md) -/

/-- The stack lift of rules R100 and R102: T <- Z, Z <- Y, Y <- X; X keeps its value, the old T is lost. -/
def lift (s : State) : State := { s with y := s.x, z := s.y, t := s.z }

/-- drop3 (rule R13): Y <- Z, Z <- T; T keeps its value, X is not written. -/
def drop3 (s : State) : State := { s with y := s.z, z := s.t }

/-- Write X alone. -/
def setX (v : Word) (s : State) : State := { s with x := v }

/-- The result of a binary operation replaces X and the stack drops (rules R120, R150, R162). -/
def replaceTop (v : Word) (s : State) : State := setX v (drop3 s)

/-- pushval(v) (rule R100), for a value already masked: with the lift-disabled mark clear the stack lifts first, with
it set X alone is replaced; either way the mark is cleared. -/
def pushval (v : Word) (s : State) : State :=
  if s.r then { setX v s with r := false } else { setX v (lift s) with r := false }

/-! ### Flags and configuration registers (10_state.md) -/

/-- Write both flags (rule R26). -/
def setFlags (c v : Bool) (s : State) : State := { s with c := c, v := v }

/-- Write BASE (rule R190). -/
def setBase (b : Field8) (s : State) : State := { s with base := b }

/-- The effect of a valid SETWS (rule R191): WS <- n, the four stack registers and the sixteen slots masked to `n`,
both flags cleared. -/
def setWordSize (n : Field8) (s : State) : State :=
  { s with
    x := maskTo n.toNat s.x
    y := maskTo n.toNat s.y
    z := maskTo n.toNat s.z
    t := maskTo n.toNat s.t
    mem := Memory.remask n.toNat s.mem
    ws := n
    c := false
    v := false }

/-! ### Completion and errors (60_exceptions.md) -/

/-- The code of an error kind (rule R221). -/
def ErrorKind.code : ErrorKind → BitVec 4
  | .divideByZero => 1
  | .invalidMemoryIndex => 2
  | .invalidWordSize => 3
  | .invalidBase => 4
  | .illegalCommand => 5

/-- Completion without error of every command (rules R25, R29): R <- 0, ERR <- 0, and CMD_DONE is signalled. ENTER sets
the mark after it (rule R102). -/
def completed (s : State) : State := { s with r := false, err := 0, cmdDone := true }

/-- Set the lift-disabled mark, as ENTER alone does (rule R102). -/
def setMark (s : State) : State := { s with r := true }

/-- `raise E` (rules R11, R220, R225), the one operation by which every error is taken: the state before the command
with ERR <- code(E), and the command completes (CMD_DONE). There is no trap, no vector, no saved state and no return
(rules R225, R226). -/
def raiseError (k : ErrorKind) (s : State) : State := { s with err := k.code, cmdDone := true }

/-- A command is atomic (rules R11, R12): from the state `s` before it, either everything it computed takes effect and
it completes, or it raised an error and nothing of it does. -/
def commit (s : State) : Except ErrorKind State → Host.Outcome State Fault Refusal
  | .ok s' => .next (completed s')
  | .error k => .next (raiseError k s)

end Sys2Proof.Machine
end

