-- ==== Sys2Proof/Machine/Flags.lean ====
section
/-! DEFINITION. The functions F of the arithmetic commands (rules R121 to R125): the result and both flags, from the
exact integers. Nothing is computed in a fixed width before the final narrowing (rule R125). -/

namespace Sys2Proof.Machine

/-- What F returns: the masked result, Carry and Overflow. -/
structure ArithResult where
  /-- the result, below 2^ws -/
  r : Word
  /-- Carry (rule R26) -/
  c : Bool
  /-- Overflow (rule R26) -/
  v : Bool
  deriving DecidableEq, Repr

/-- F of ADD (rule R121): C is the carry out of bit n-1, V the signed sum leaving SRANGE(n). -/
def addResult (n : Nat) (a b : Word) : ArithResult where
  r := BitVec.ofNat 128 ((a.toNat + b.toNat) % 2 ^ n)
  c := decide (2 ^ n ≤ a.toNat + b.toNat)
  v := !inSRange n (sgn n a + sgn n b)

/-- F of SUB (rule R122): C is the borrow. -/
def subResult (n : Nat) (a b : Word) : ArithResult where
  r := wrap n ((a.toNat : Int) - (b.toNat : Int))
  c := decide (a.toNat < b.toNat)
  v := !inSRange n (sgn n a - sgn n b)

/-- F of MUL (rule R123): C says that the unsigned product needs more than n bits. -/
def mulResult (n : Nat) (a b : Word) : ArithResult where
  r := BitVec.ofNat 128 ((a.toNat * b.toNat) % 2 ^ n)
  c := decide (2 ^ n ≤ a.toNat * b.toNat)
  v := !inSRange n (sgn n a * sgn n b)

/-- F of DIV (rule R124): unsigned floor division, both flags 0; a zero divisor raises DivideByZero. -/
def divResult (a b : Word) : Except ErrorKind ArithResult :=
  if b = 0 then .error .divideByZero
  else .ok { r := BitVec.ofNat 128 (a.toNat / b.toNat), c := false, v := false }

/-- The common shape of the arithmetic commands (rule R120): the result replaces X, the stack drops, and both flags
are rewritten. -/
def applyArith (s : State) (a : ArithResult) : State := setFlags a.c a.v (replaceTop a.r s)

end Sys2Proof.Machine
end

