-- ==== Sys2Proof/Machine/Arithmetic.lean ====
section
/-! DEFINITION. The arithmetic commands ADD, SUB, MUL, DIV (41_arithmetic.md): first operand X, second Y. -/

namespace Sys2Proof.Machine

/-- ADD (rule R121). -/
def execAdd (s : State) : Host.Outcome State Fault Refusal :=
  commit s (.ok (applyArith s (addResult s.ws.toNat s.x s.y)))

/-- SUB (rule R122): X - Y. -/
def execSub (s : State) : Host.Outcome State Fault Refusal :=
  commit s (.ok (applyArith s (subResult s.ws.toNat s.x s.y)))

/-- MUL (rule R123). -/
def execMul (s : State) : Host.Outcome State Fault Refusal :=
  commit s (.ok (applyArith s (mulResult s.ws.toNat s.x s.y)))

/-- DIV (rule R124): X / Y, unsigned; Y = 0 raises DivideByZero. -/
def execDiv (s : State) : Host.Outcome State Fault Refusal :=
  commit s ((divResult s.x s.y).map (applyArith s))

end Sys2Proof.Machine
end

