-- ==== Sys2Proof/Machine/Bitwise.lean ====
section
/-! DEFINITION. The bitwise commands AND, OR, XOR, NOT (42_bitwise.md). None of them raises an error or writes C or V
(decision D12). -/

namespace Sys2Proof.Machine

/-- The common shape of AND, OR and XOR (rule R150): the masked combination replaces X and the stack drops. -/
def applyBitwise (g : Word) (s : State) : State := replaceTop (maskTo s.ws.toNat g) s

/-- AND (rule R151). -/
def execAnd (s : State) : Host.Outcome State Fault Refusal :=
  commit s (.ok (applyBitwise (s.x &&& s.y) s))

/-- OR (rule R152). -/
def execOr (s : State) : Host.Outcome State Fault Refusal :=
  commit s (.ok (applyBitwise (s.x ||| s.y) s))

/-- XOR (rule R153). -/
def execXor (s : State) : Host.Outcome State Fault Refusal :=
  commit s (.ok (applyBitwise (s.x ^^^ s.y) s))

/-- NOT (rule R154): the complement of X within the word size, in place. -/
def execNot (s : State) : Host.Outcome State Fault Refusal :=
  commit s (.ok (setX (maskTo s.ws.toNat (~~~s.x)) s))

end Sys2Proof.Machine
end

