-- ==== Sys2Proof/Machine/Operands.lean ====
section
/-! DEFINITION. The operand forms of the engine: the data operand (rule R73) and the three readings of ARG (rule R72),
each with the check its command makes. The other operands are the stack registers themselves. -/

namespace Sys2Proof.Machine

/-- The data operand of PUSH and STOV: DATA & MASK(ws) (rules R73, R101, R202). -/
def dataOperand (s : State) (data : Word) : Word := maskTo s.ws.toNat data

/-- ARG as a slot index, with check_index (rule R200). -/
def slotOperand (arg : Field8) : Except ErrorKind Nat :=
  if arg.toNat < Config.nslots then .ok arg.toNat else .error .invalidMemoryIndex

/-- ARG as a word size, valid in [1, 128] (rule R191). -/
def wordSizeOperand (arg : Field8) : Except ErrorKind Field8 :=
  if Config.wsMin ≤ arg.toNat ∧ arg.toNat ≤ Config.wsMax then .ok arg else .error .invalidWordSize

/-- ARG as a radix, valid in {2, 8, 10, 16} (rule R190). -/
def radixOperand (arg : Field8) : Except ErrorKind Field8 :=
  if arg ∈ Config.bases then .ok arg else .error .invalidBase

end Sys2Proof.Machine
end

