-- ==== Sys2Proof/Machine/Configuration.lean ====
section
/-! DEFINITION. The configuration commands SETBASE and SETWS (44_config.md). -/

namespace Sys2Proof.Machine

/-- SETBASE radix (rule R190): no stored value changes. -/
def execSetbase (arg : Field8) (s : State) : Host.Outcome State Fault Refusal :=
  commit s ((radixOperand arg).map fun b => setBase b s)

/-- SETWS n (rule R191): re-masks every register and slot and clears both flags, also for the current size
(decision D30). -/
def execSetws (arg : Field8) (s : State) : Host.Outcome State Fault Refusal :=
  commit s ((wordSizeOperand arg).map fun n => setWordSize n s)

end Sys2Proof.Machine
end

