-- ==== Sys2Proof/Machine/MemoryOps.lean ====
section
/-! DEFINITION. The memory commands STO, STOV, RCL (45_memory_ops.md): slot-direct addressing, the index is ARG. None of
them writes C or V. -/

namespace Sys2Proof.Machine

/-- STO i (rule R201): slot i takes the masked X; the stack does not change (decision D20). -/
def execSto (arg : Field8) (s : State) : Host.Outcome State Fault Refusal :=
  commit s ((slotOperand arg).map fun i => slotWrite i (maskTo s.ws.toNat s.x) s)

/-- STOV i, value (rule R202): slot i takes the masked DATA; the stack does not change. -/
def execStov (arg : Field8) (data : Word) (s : State) : Host.Outcome State Fault Refusal :=
  commit s ((slotOperand arg).map fun i => slotWrite i (dataOperand s data) s)

/-- RCL i (rule R203): the slot's value through the push primitive; the slot keeps it. -/
def execRcl (arg : Field8) (s : State) : Host.Outcome State Fault Refusal :=
  commit s ((slotOperand arg).map fun i => pushval (slotRead i s) s)

end Sys2Proof.Machine
end

