-- ==== Sys2Proof/Machine/Shifter.lean ====
section
/-! DEFINITION. The shift and rotate functions of rule R160, for a word size `n`, a value `x` below 2^n and any natural
amount `k`. The logical and arithmetic shifts test for an amount of `n` or more first, where the rule's formula has its
saturated value (DEDUCED, log entry 8). -/

namespace Sys2Proof.Machine

/-- shl(x, k) = (x << k) & MASK(n); 0 when k >= n. -/
def shl (n : Nat) (x : Word) (k : Nat) : Word := if k < n then maskTo n (x <<< k) else 0

/-- shr(x, k) = x >> k; 0 when k >= n. -/
def shr (n : Nat) (x : Word) (k : Nat) : Word := if k < n then x >>> k else 0

/-- asr(x, k) = wrap(floor(sgn_n(x) / 2^k)); the sign fill when k >= n. The division is by a positive number, so
Lean's `/` on integers is the floor. -/
def asr (n : Nat) (x : Word) (k : Nat) : Word :=
  if k < n then wrap n (sgn n x / ((2 ^ k : Nat) : Int))
  else if signBit n x then mask n else 0

/-- rol(x, k): with j = k mod n, ((x << j) | (x >> (n - j))) & MASK(n). -/
def rol (n : Nat) (x : Word) (k : Nat) : Word := maskTo n ((x <<< (k % n)) ||| (x >>> (n - k % n)))

/-- ror(x, k): with j = k mod n, ((x >> j) | (x << (n - j))) & MASK(n). -/
def ror (n : Nat) (x : Word) (k : Nat) : Word := maskTo n ((x >>> (k % n)) ||| (x <<< (n - k % n)))

end Sys2Proof.Machine
end

