-- ==== Sys2Proof/Machine/ShiftRotate.lean ====
section
/-! DEFINITION. The shift and rotate commands (43_shift_rotate.md): SL, SR, ASR, RL, RR by 1 in place (rule R161), and SLY,
SRY, ASRY, RLY, RRY by the whole unsigned value of Y, which is consumed (rule R162). None of them raises an error or
writes C or V (decision D13). -/

namespace Sys2Proof.Machine

/-- SL (shift left logical by 1; rules R161, R163). -/
def execSl (s : State) : Host.Outcome State Fault Refusal :=
  commit s (.ok (setX (shl s.ws.toNat s.x 1) s))

/-- SR (shift right logical by 1; rules R161, R164). -/
def execSr (s : State) : Host.Outcome State Fault Refusal :=
  commit s (.ok (setX (shr s.ws.toNat s.x 1) s))

/-- ASR (shift right arithmetic by 1; rules R161, R165). -/
def execAsr (s : State) : Host.Outcome State Fault Refusal :=
  commit s (.ok (setX (asr s.ws.toNat s.x 1) s))

/-- RL (rotate left by 1; rules R161, R166). -/
def execRl (s : State) : Host.Outcome State Fault Refusal :=
  commit s (.ok (setX (rol s.ws.toNat s.x 1) s))

/-- RR (rotate right by 1; rules R161, R167). -/
def execRr (s : State) : Host.Outcome State Fault Refusal :=
  commit s (.ok (setX (ror s.ws.toNat s.x 1) s))

/-- SLY (shift left logical by Y; rules R162, R168). -/
def execSly (s : State) : Host.Outcome State Fault Refusal :=
  commit s (.ok (replaceTop (shl s.ws.toNat s.x s.y.toNat) s))

/-- SRY (shift right logical by Y; rules R162, R169). -/
def execSry (s : State) : Host.Outcome State Fault Refusal :=
  commit s (.ok (replaceTop (shr s.ws.toNat s.x s.y.toNat) s))

/-- ASRY (shift right arithmetic by Y; rules R162, R170). -/
def execAsry (s : State) : Host.Outcome State Fault Refusal :=
  commit s (.ok (replaceTop (asr s.ws.toNat s.x s.y.toNat) s))

/-- RLY (rotate left by Y; rules R162, R171). -/
def execRly (s : State) : Host.Outcome State Fault Refusal :=
  commit s (.ok (replaceTop (rol s.ws.toNat s.x s.y.toNat) s))

/-- RRY (rotate right by Y; rules R162, R172). -/
def execRry (s : State) : Host.Outcome State Fault Refusal :=
  commit s (.ok (replaceTop (ror s.ws.toNat s.x s.y.toNat) s))

end Sys2Proof.Machine
end

