-- ==== Sys2Proof/Machine/Stack.lean ====
section
/-! DEFINITION. The stack commands PUSH, ENTER, DROP, SWAP, ROLL (40_stack.md). None of them raises an error or writes
C or V. -/

namespace Sys2Proof.Machine

/-- PUSH value (rule R101): the masked DATA through the push primitive. -/
def execPush (data : Word) (s : State) : Host.Outcome State Fault Refusal :=
  commit s (.ok (pushval (dataOperand s data) s))

/-- ENTER (rule R102): always lifts (decision D34), leaves X, and sets the lift-disabled mark. -/
def execEnter (s : State) : Host.Outcome State Fault Refusal :=
  .next (setMark (completed (lift s)))

/-- DROP (rule R103): X <- Y, Y <- Z, Z <- T, T keeps its value. -/
def execDrop (s : State) : Host.Outcome State Fault Refusal :=
  commit s (.ok (replaceTop s.y s))

/-- SWAP (rule R104): exchange X and Y. -/
def execSwap (s : State) : Host.Outcome State Fault Refusal :=
  commit s (.ok { s with x := s.y, y := s.x })

/-- ROLL (rule R105): X <- Y <- Z <- T <- X. -/
def execRoll (s : State) : Host.Outcome State Fault Refusal :=
  commit s (.ok { s with x := s.y, y := s.z, z := s.t, t := s.x })

end Sys2Proof.Machine
end

