-- ==== Sys2Proof/Machine/Dispatch.lean ====
section
/-! DEFINITION. The dispatch: one arm per command of rule R74, each one call of the meaning of that command. -/

namespace Sys2Proof.Machine

/-- Execute one command on the state it is accepted in. -/
def exec (i : Instr) (s : State) : Host.Outcome State Fault Refusal :=
  match i with
  -- 40_stack.md
  | .push data => Sys2Proof.Machine.execPush data s
  | .enter => Sys2Proof.Machine.execEnter s
  | .drop => Sys2Proof.Machine.execDrop s
  | .swap => Sys2Proof.Machine.execSwap s
  | .roll => Sys2Proof.Machine.execRoll s
  -- 41_arithmetic.md
  | .add => Sys2Proof.Machine.execAdd s
  | .sub => Sys2Proof.Machine.execSub s
  | .mul => Sys2Proof.Machine.execMul s
  | .div => Sys2Proof.Machine.execDiv s
  -- 42_bitwise.md
  | .and => Sys2Proof.Machine.execAnd s
  | .or => Sys2Proof.Machine.execOr s
  | .xor => Sys2Proof.Machine.execXor s
  | .not => Sys2Proof.Machine.execNot s
  -- 43_shift_rotate.md
  | .sl => Sys2Proof.Machine.execSl s
  | .sr => Sys2Proof.Machine.execSr s
  | .asr => Sys2Proof.Machine.execAsr s
  | .rl => Sys2Proof.Machine.execRl s
  | .rr => Sys2Proof.Machine.execRr s
  | .sly => Sys2Proof.Machine.execSly s
  | .sry => Sys2Proof.Machine.execSry s
  | .asry => Sys2Proof.Machine.execAsry s
  | .rly => Sys2Proof.Machine.execRly s
  | .rry => Sys2Proof.Machine.execRry s
  -- 44_config.md
  | .setbase arg => Sys2Proof.Machine.execSetbase arg s
  | .setws arg => Sys2Proof.Machine.execSetws arg s
  -- 45_memory_ops.md
  | .sto arg => Sys2Proof.Machine.execSto arg s
  | .stov arg data => Sys2Proof.Machine.execStov arg data s
  | .rcl arg => Sys2Proof.Machine.execRcl arg s

end Sys2Proof.Machine
end

