-- ==== Sys2Proof/Machine/Ports.lean ====
section
/-! DEFINITION. The ports of the engine (rule R70): the input samples, acceptance of a command, reset, and the output
ports as functions of the state (rules R27, R28). An output is meant between commands only (rule R255). -/

namespace Sys2Proof.Machine

/-! ### Inputs -/

/-- The input ports when the host drives nothing: no command presented, RST released. -/
def PortInput.idle : PortInput := ⟨0, 0, false, false⟩

/-- The sample that presents a command with RST released. -/
def PortInput.present (cmd : CmdWord) (data : Word) : PortInput := ⟨cmd, data, true, false⟩

/-- The sample that asserts RST and presents nothing. -/
def PortInput.assertRst : PortInput := ⟨0, 0, false, true⟩

/-- The sample on the input ports now: the oldest the host has still to drive. -/
def State.pins (s : State) : PortInput := s.host.headD PortInput.idle

/-- Acceptance of a command (rule R70): it is no longer done until it completes. -/
def accept (s : State) : State := { s with cmdDone := false }

/-- RST (rules R250, R251): every element of the state takes its reset value, and nothing of a command in flight
survives; what the host will drive next is not the engine's to change. -/
def resetEngine (s : State) : State := { State.reset with host := s.host }

/-! ### Outputs -/

/-- CMD_READY between commands (rules R70, R250): low exactly while RST is asserted. -/
def State.cmdReady (s : State) : Bool := !s.pins.rst

/-- X_OUT[127:0] (rule R27). -/
def State.xOut (s : State) : Word := s.x

/-- Y_OUT[127:0] (rule R27). -/
def State.yOut (s : State) : Word := s.y

/-- Z_OUT[127:0] (rule R27). -/
def State.zOut (s : State) : Word := s.z

/-- T_OUT[127:0] (rule R27). -/
def State.tOut (s : State) : Word := s.t

/-- STATUS_OUT[31:0] (rule R28), from bit 31 down: 31:24 reserved, BASE 23:16, WS 15:8, ERR 7:4, 3 reserved, R 2, V 1,
C 0. -/
def State.statusOut (s : State) : BitVec 32 :=
  0#8 ++ s.base ++ s.ws ++ s.err ++ 0#1 ++ BitVec.ofBool s.r ++ BitVec.ofBool s.v ++ BitVec.ofBool s.c

end Sys2Proof.Machine
end

