-- ==== Sys2Proof/Machine/Transaction.lean ====
section
/-! DEFINITION. One command transaction (rules R70, R224), and what one sample of the input ports does. -/

namespace Sys2Proof.Machine

/-- A command, accepted (rule R224): decode comes first, an illegal word executes no operation and raises
IllegalCommand (rule R223); a legal command is executed and makes its own check. -/
def executeCommand (cmd : CmdWord) (data : Word) (s : State) : Host.Outcome State Fault Refusal :=
  match decode cmd data with
  | .ok i => exec i s
  | .error _ => .next (raiseError .illegalCommand s)

/-- What one sample of the input ports does. While RST is asserted no command is accepted, and one in flight is
abandoned (rules R250, R251; log entries 5 and 6); a presented command is accepted and executed as one atomic step
(rules R12, R70; log entry 1); otherwise the engine waits. -/
def respond (p : PortInput) (s : State) : Host.Outcome State Fault Refusal :=
  if p.rst then .next (resetEngine s)
  else if p.cmdValid then executeCommand p.cmd p.data (accept s)
  else .next s

/-- The sample that presents an opcode-table row's bits as a command (log entry 3). -/
def tableWordInput (nbits w : Nat) : PortInput :=
  PortInput.present (commandOfTableWord nbits w).cmd (commandOfTableWord nbits w).data

end Sys2Proof.Machine
end

