-- ==== Sys2Proof/Machine/Step.lean ====
section
/-! DEFINITION. One step of the machine: the engine takes the next sample of its input ports. There is no program
counter (rule R22); the next instruction is the next command the host presents. -/

namespace Sys2Proof.Machine

/-- One step: take the oldest sample the host drives and respond to it; with none, the engine waits for a command
(rule R250). -/
def step (s : State) : Host.Outcome State Fault Refusal :=
  match s.host with
  | [] => .next s
  | p :: rest => respond p { s with host := rest }

/-- `s` with an opcode-table row's bits presented as the very next command (log entries 2 and 3). -/
def State.withFetchWord (s : State) (nbits w : Nat) : State := { s with host := tableWordInput nbits w :: s.host }

end Sys2Proof.Machine
end

