-- ==== Sys2Proof/Machine/Assembler.lean ====
section
/-! DEFINITION. The assembly syntax of rules R80 and R81: one command a line, the number formats, and the
pseudo-instructions. It is text only; no command's meaning depends on it (decision D31). What the rules leave open of
the text (white space, case, a value too wide for DATA) is log entry 13. -/

namespace Sys2Proof.Machine

/-- Why a line is not a command. -/
inductive AsmError where
  /-- the first token is no mnemonic of rules R80 and R81 that takes this many operands -/
  | unknownForm
  /-- an operand is not a number of rule R80, or does not fit its field -/
  | badNumber
  deriving DecidableEq, Repr

/-- The digit a character stands for; a hexadecimal digit may have either case. -/
def digitValue (ch : Char) : Option Nat :=
  if '0' ≤ ch ∧ ch ≤ '9' then some (ch.toNat - 48)
  else if 'a' ≤ ch ∧ ch ≤ 'f' then some (ch.toNat - 87)
  else if 'A' ≤ ch ∧ ch ≤ 'F' then some (ch.toNat - 55)
  else none

/-- The number that digits stand for in a radix, continuing from `acc`. -/
def parseDigits (radix : Nat) : List Char → Nat → Option Nat
  | [], acc => some acc
  | ch :: rest, acc =>
    match digitValue ch with
    | some d => if d < radix then parseDigits radix rest (acc * radix + d) else none
    | none => none

/-- At least one digit. -/
def parseNumber (radix : Nat) : List Char → Option Nat
  | [] => none
  | ch :: rest => parseDigits radix (ch :: rest) 0

/-- A value (rule R80): decimal, or with the 0x, 0o or 0b of hexadecimal, octal or binary, whatever BASE holds. -/
def parseValue (tok : List Char) : Except AsmError Word :=
  let n? :=
    match tok with
    | '0' :: 'x' :: digits => parseNumber 16 digits
    | '0' :: 'o' :: digits => parseNumber 8 digits
    | '0' :: 'b' :: digits => parseNumber 2 digits
    | digits => parseNumber 10 digits
  match n? with
  | some n => if n < 2 ^ 128 then .ok (BitVec.ofNat 128 n) else .error .badNumber
  | none => .error .badNumber

/-- An ARG operand (rule R80): a decimal integer 0 to 255. -/
def parseArg (tok : List Char) : Except AsmError Field8 :=
  match parseNumber 10 tok with
  | some n => if n < 256 then .ok (BitVec.ofNat 8 n) else .error .badNumber
  | none => .error .badNumber

/-- The token read so far, if any; it was gathered backwards. -/
def flushToken (acc : List Char) : List (List Char) := if acc = [] then [] else [acc.reverse]

/-- The tokens of a line: split at spaces and tabs, a comma alone, nothing from `;` on. -/
def tokens : List Char → List Char → List (List Char)
  | [], acc => flushToken acc
  | ch :: rest, acc =>
    if ch = ';' then flushToken acc
    else if ch = ' ' ∨ ch = '\t' then flushToken acc ++ tokens rest []
    else if ch = ',' then flushToken acc ++ [[',']] ++ tokens rest []
    else tokens rest (ch :: acc)

/-- The mnemonics of format N (rules R71, R74). -/
def asmPlain : List (List Char × Instr) :=
  [("ENTER".toList, .enter), ("DROP".toList, .drop), ("SWAP".toList, .swap), ("ROLL".toList, .roll)] ++
  [("ADD".toList, .add), ("SUB".toList, .sub), ("MUL".toList, .mul), ("DIV".toList, .div)] ++
  [("AND".toList, .and), ("OR".toList, .or), ("XOR".toList, .xor), ("NOT".toList, .not)] ++
  [("SL".toList, .sl), ("SR".toList, .sr), ("ASR".toList, .asr), ("RL".toList, .rl), ("RR".toList, .rr)] ++
  [("SLY".toList, .sly), ("SRY".toList, .sry), ("ASRY".toList, .asry), ("RLY".toList, .rly), ("RRY".toList, .rry)]

/-- The pseudo-instructions and their expansions (rule R81). -/
def asmPseudo : List (List Char × Instr) :=
  [("ASL".toList, .sl), ("ASLY".toList, .sly), ("BIN".toList, .setbase 2), ("OCT".toList, .setbase 8),
   ("DEC".toList, .setbase 10), ("HEX".toList, .setbase 16), ("RDN".toList, .roll)]

/-- The mnemonics of format A (rules R71, R80). -/
def asmArg : List (List Char × (Field8 → Instr)) :=
  [("SETBASE".toList, .setbase), ("SETWS".toList, .setws), ("STO".toList, .sto), ("RCL".toList, .rcl)]

/-- The instruction of a line's tokens (rules R80, R81). -/
def assembleTokens : List (List Char) → Except AsmError Instr
  | [m] =>
    match (asmPlain ++ asmPseudo).find? (fun row => row.1 == m) with
    | some row => .ok row.2
    | none => .error .unknownForm
  | [m, a] =>
    if m = "PUSH".toList then (parseValue a).map Instr.push
    else
      match asmArg.find? (fun row => row.1 == m) with
      | some row => (parseArg a).map row.2
      | none => .error .unknownForm
  | [m, a, comma, b] =>
    if m = "STOV".toList ∧ comma = [','] then
      match parseArg a with
      | .ok i => (parseValue b).map (Instr.stov i)
      | .error e => .error e
    else .error .unknownForm
  | _ => .error .unknownForm

/-- The command of a line (rule R80), or none for a line that is blank or only a comment. -/
def assembleLine (line : List Char) : Except AsmError (Option Command) :=
  match tokens line [] with
  | [] => .ok none
  | t :: rest => (assembleTokens (t :: rest)).map fun i => some (encode i)

end Sys2Proof.Machine
end

