-- ==== Sys2Proof/Safety.lean ====
section
/-! DEFINITION. What counts as a legal state of the engine: the masked invariant (rule R21), the values that WS, BASE and
ERR can hold (rules R23, R24, R221), the canonical form of the slot file; and a run of commands. -/

namespace Sys2Proof.Machine

/-- WS holds a word size in [1, 128] (rule R23). -/
abbrev State.WsLegal (s : State) : Prop := Config.wsMin ≤ s.ws.toNat ∧ s.ws.toNat ≤ Config.wsMax

/-- BASE holds one of the four radix values (rule R24). -/
abbrev State.BaseLegal (s : State) : Prop := s.base ∈ Config.bases

/-- ERR holds one of the codes 0 to 5 (rule R221). -/
abbrev State.ErrLegal (s : State) : Prop := s.err.toNat ≤ 5

/-- The four stack registers are below 2^ws (rule R21). -/
abbrev State.StackMasked (s : State) : Prop :=
  s.x.toNat < 2 ^ s.ws.toNat ∧ s.y.toNat < 2 ^ s.ws.toNat ∧ s.z.toNat < 2 ^ s.ws.toNat ∧ s.t.toNat < 2 ^ s.ws.toNat

/-- Every memory slot is below 2^ws (rule R21). -/
abbrev State.SlotsMasked (s : State) : Prop := ∀ i < Config.nslots, (slotRead i s).toNat < 2 ^ s.ws.toNat

/-- A legal state: what reset leaves and every step keeps. -/
abbrev State.Inv (s : State) : Prop :=
  s.WsLegal ∧ s.BaseLegal ∧ s.ErrLegal ∧ s.StackMasked ∧ s.SlotsMasked ∧ Memory.wf s.mem = true

/-- Two states that agree on everything a command reads (rules R24, R26, R29): the stack, the slots, the word size and the
mark, and what the host will drive. They may differ in BASE, C, V, ERR and CMD_DONE. -/
abbrev State.SameInputs (s s' : State) : Prop :=
  s.x = s'.x ∧ s.y = s'.y ∧ s.z = s'.z ∧ s.t = s'.t ∧ s.mem = s'.mem ∧ s.ws = s'.ws ∧ s.r = s'.r ∧ s.host = s'.host

/-- Two runs side by side, from s to t and from s' to t', give a part of the state the same value, or both leave it as it
was: so the value one of them had there before reaches no new value. -/
abbrev State.SameOrKept {α : Type} (part : State → α) (s s' t t' : State) : Prop :=
  part t = part t' ∨ part t = part s ∧ part t' = part s'

/-- The instruction writes slot k, or may: STO k, STOV k, or SETWS, which re-masks every slot (rules R31, R62). -/
abbrev WritesSlot (i : Instr) (k : Nat) : Prop :=
  (∃ a, i = .sto a ∧ a.toNat = k) ∨ (∃ a d, i = .stov a d ∧ a.toNat = k) ∨ ∃ n, i = .setws n

/-- A run of commands (rule R258): one after the other, each on the state the one before it left, up to the first that
gives no next state. -/
def execAll : List Instr → State → Host.Outcome State Fault Refusal
  | [], s => .next s
  | i :: rest, s =>
    match exec i s with
    | .next t => execAll rest t
    | .fault r => .fault r
    | .refused r => .refused r

end Sys2Proof.Machine
end

