-- ==== Sys2Proof/WellFormed.lean ====
section
/-! DEFINITION. Two checks. `wordWellFormed` is the reserved-field check of rules R75 and R77 on a command word,
written from the bit-pattern strings of rule R71 and apart from the decoder. `Instr.argLegal` is the operand check that
a command of format A or AD makes for itself (rules R72, R190, R191, R200). -/

namespace Sys2Proof

/-- The opcodes of formats N and D (rules R71, R74), whose ARG field must be 0. -/
def opsWithoutArg : List Field8 :=
  [0x01, 0x02, 0x03, 0x04, 0x05, 0x10, 0x11, 0x12, 0x13, 0x20, 0x21, 0x22, 0x23] ++
  [0x30, 0x31, 0x32, 0x33, 0x34, 0x38, 0x39, 0x3A, 0x3B, 0x3C]

/-- The opcodes of formats A and AD (rules R71, R74), whose ARG field is an operand. -/
def opsWithArg : List Field8 := [0x40, 0x41, 0x50, 0x51, 0x52]

/-- A command word is well formed: its OP is in the opcode map (rule R77), RSV is 0, and ARG is 0 in the formats that do
not use it (rule R75). Every other word is illegal. -/
def wordWellFormed (cmd : CmdWord) : Bool :=
  cmd.extractLsb' 0 16 == 0#16 &&
  ((opsWithoutArg.contains (cmd.extractLsb' 24 8) && cmd.extractLsb' 16 8 == 0#8) ||
    opsWithArg.contains (cmd.extractLsb' 24 8))

/-- The ARG of an instruction names what its command can use: a slot of the slot map (rule R200), a word size in
[1, 128] (rule R191) or one of the four bases (rule R190). An instruction without an ARG passes. -/
def Instr.argLegal : Instr → Bool
  | .setbase arg => Config.bases.contains arg
  | .setws arg => decide (Config.wsMin ≤ arg.toNat) && decide (arg.toNat ≤ Config.wsMax)
  | .sto arg => decide (arg.toNat < Config.nslots)
  | .stov arg _ => decide (arg.toNat < Config.nslots)
  | .rcl arg => decide (arg.toNat < Config.nslots)
  | .push _ => true
  | .enter => true
  | .drop => true
  | .swap => true
  | .roll => true
  | .add => true
  | .sub => true
  | .mul => true
  | .div => true
  | .and => true
  | .or => true
  | .xor => true
  | .not => true
  | .sl => true
  | .sr => true
  | .asr => true
  | .rl => true
  | .rr => true
  | .sly => true
  | .sry => true
  | .asry => true
  | .rly => true
  | .rry => true

end Sys2Proof
end

