-- ==== Sys2Proof/Certificates/Slice0/Obligations.lean ====
section
/-! DEFINITION. What is claimed of the engine: one definition per statement. An equation `exec i s = .next (s with …)` says
at once that the command completes, what it writes, and that every other field is unchanged. -/

open Sys2Proof Sys2Proof.Machine

/-! ### Encoding (30_encoding.md) -/

/-- Decoding an encoded instruction gives it back, for every instruction and every operand value (rules R71, R74). -/
def Obligations.EncodeThenDecodeReturnsInstr : Prop :=
  ∀ i : Instr, decode (encode i).cmd (encode i).data = .ok i

/-- A word that decodes is the encoding of what it decodes to, and DATA is carried by PUSH and STOV, 0 otherwise. -/
def Obligations.DecodeThenEncodeReturnsWord : Prop :=
  ∀ (cmd : CmdWord) (data : Word) (i : Instr), decode cmd data = .ok i →
    (encode i).cmd = cmd ∧ (encode i).data = if opField cmd = 0x01 ∨ opField cmd = 0x51 then data else 0

/-- Rule R82: a word matches one row of the opcode table under `CMD & mask == match` and decodes to that row's command
with its ARG, whatever DATA is, or matches none and is illegal, whatever DATA is. -/
def Obligations.DecodeByMatchAndMask : Prop :=
  opTable.length = 28 ∧
  ∀ cmd : CmdWord,
    (∃ row ∈ opTable, cmd &&& row.mask = row.pattern ∧
      (∀ row' ∈ opTable, cmd &&& row'.mask = row'.pattern → row' = row) ∧
      ∀ data, decode cmd data = .ok (row.build (argField cmd) data)) ∨
    ((∀ row ∈ opTable, cmd &&& row.mask ≠ row.pattern) ∧ ∀ data, ∃ e, decode cmd data = .error e)

/-- The words that decode are those that pass the reserved-field check, which is written apart from the decoder. -/
def Obligations.WellFormedWordsAreTheDecodable : Prop :=
  ∀ (cmd : CmdWord) (data : Word), wordWellFormed cmd = true ↔ ∃ i, decode cmd data = .ok i

/-- Rules R75, R77, R223: an illegal word, presented, changes nothing but ERR (and completes). -/
def Obligations.IllegalWordOnlyWritesErr : Prop :=
  ∀ (s : State) (cmd : CmdWord) (data : Word) (rest : List PortInput),
    (opField cmd ∉ opsWithoutArg ++ opsWithArg ∨ rsvField cmd ≠ 0 ∨ opField cmd ∈ opsWithoutArg ∧ argField cmd ≠ 0) →
    s.host = PortInput.present cmd data :: rest →
    step s = .next { s with host := rest, err := 5, cmdDone := true }

/-- Rule R76: DATA is ignored by every command but PUSH and STOV. -/
def Obligations.DataIgnoredOutsidePushAndStov : Prop :=
  ∀ (s : State) (cmd : CmdWord) (data data' : Word) (rest : List PortInput),
    opField cmd ≠ 0x01 → opField cmd ≠ 0x51 →
    step { s with host := PortInput.present cmd data :: rest } =
      step { s with host := PortInput.present cmd data' :: rest }

/-- One word of each family, and two illegal ones, read as the opcode table writes them. The names under which the decoder
answers for the illegal words are the model's choice (log entry 15); that they are illegal is the table's. -/
def Obligations.OpcodeWordsDecode : Prop :=
  decode 0x01000000 300 = .ok (.push 300) ∧ decode 0x05000000 0 = .ok .roll ∧ decode 0x11000000 0 = .ok .sub ∧
  decode 0x23000000 0 = .ok .not ∧ decode 0x34000000 0 = .ok .rr ∧ decode 0x3A000000 0 = .ok .asry ∧
  decode 0x41800000 0 = .ok (.setws 128) ∧ decode 0x510F0000 0x1FF = .ok (.stov 15 0x1FF) ∧
  decode 0x06000000 0 = .error .undefinedOp ∧ decode 0x10010000 0 = .error .reservedArg

/-! ### The step and the host (30_encoding.md, 70_reset_and_hazards.md) -/

/-- A presented command that decodes is executed on the state that has accepted it: the sample is taken and CMD_DONE is
low until the command completes. -/
def Obligations.StepRunsDecodedCommand : Prop :=
  ∀ (s : State) (cmd : CmdWord) (data : Word) (rest : List PortInput) (i : Instr),
    s.host = PortInput.present cmd data :: rest → decode cmd data = .ok i →
    step s = exec i { s with host := rest, cmdDone := false }

/-- The bits of an opcode-table row, presented next, are executed by the next step (the layout is log entry 3). -/
def Obligations.TableWordStepRunsInstr : Prop :=
  ∀ (s : State) (nbits w : Nat) (i : Instr), decodeTableWord nbits w = some i →
    step (s.withFetchWord nbits w) = exec i { s with cmdDone := false }

/-- With RST released CMD_READY is high, and while no command is presented the engine waits: nothing of it changes. That
CMD_DONE keeps its level while it waits is the model's reading (log entry 4), and so are the samples, and no sample left
as RST released (log entry 2). -/
def Obligations.EngineWaitsWithoutCommand : Prop :=
  ∀ s : State,
    (s.host = [] → s.cmdReady = true ∧ step s = .next s) ∧
    ∀ p rest, s.host = p :: rest → p.rst = false →
      s.cmdReady = true ∧ (p.cmdValid = false → step s = .next { s with host := rest })

/-- RST in a sample, with or without a command: CMD_READY is low, no command is accepted and one in flight leaves no
trace; every element of the state has its reset value (how a sample shows this, and CMD_DONE low after it, is the model's: log entries 4, 5 and 6). -/
def Obligations.ResetSampleGivesResetState : Prop :=
  ∀ (s : State) (p : PortInput) (rest : List PortInput), s.host = p :: rest → p.rst = true →
    s.cmdReady = false ∧ step s = .next { State.reset with host := rest }

/-- Rule R33: the reset value of every element of the state. -/
def Obligations.ResetStateValues : Prop :=
  State.reset.x = 0 ∧ State.reset.y = 0 ∧ State.reset.z = 0 ∧ State.reset.t = 0 ∧
  (∀ i < 16, slotRead i State.reset = 0) ∧ State.reset.ws = 64 ∧ State.reset.base = 10 ∧
  State.reset.c = false ∧ State.reset.v = false ∧ State.reset.r = false ∧ State.reset.err = 0

/-- The reset state is legal: the masked invariant, legal WS, BASE and ERR, a canonical slot file. -/
def Obligations.ResetStateIsLegal : Prop := State.reset.Inv

/-- The masked invariant (10_state.md section 1), with the legal values of WS, BASE and ERR and with the canonical form of
the slot file, which is the model's choice (log entry 7): reset satisfies it, and every step from every state that
satisfies it leads to one that does. -/
def Obligations.StepKeepsLegalState : Prop :=
  State.reset.Inv ∧ ∀ s t : State, s.Inv → step s = .next t → t.Inv

/-- No condition stops the engine: every step, from every state, answers a next state. -/
def Obligations.EveryStepAnswersNext : Prop :=
  ∀ s : State, ∃ t, step s = .next t

/-! ### Errors (60_exceptions.md) -/

/-- Rules R221, R222, R224: which code a command leaves in ERR, and when. Decode is first; then the command's one own
check; no other condition is an error. -/
def Obligations.ErrCodesExactlyWhenRaised : Prop :=
  ∀ (cmd : CmdWord) (data : Word) (s : State), ∃ t, executeCommand cmd data s = .next t ∧
    t.err.toNat ≤ 5 ∧
    (t.err = 5 ↔ wordWellFormed cmd = false) ∧
    ∀ i, decode cmd data = .ok i →
      exec i s = .next t ∧
      (t.err = 1 ↔ i = .div ∧ s.y = 0) ∧
      (t.err = 2 ↔ ∃ a, 15 < a.toNat ∧ (i = .sto a ∨ i = .rcl a ∨ ∃ d, i = .stov a d)) ∧
      (t.err = 3 ↔ ∃ n, i = .setws n ∧ (n = 0 ∨ 128 < n.toNat)) ∧
      (t.err = 4 ↔ ∃ b, i = .setbase b ∧ b ≠ 2 ∧ b ≠ 8 ∧ b ≠ 10 ∧ b ≠ 16)

/-- Rules R11, R220: a command that raises an error leaves every register, slot, flag, the mark, WS and BASE as they
were, and writes ERR alone (and completes). -/
def Obligations.ErrorLeavesAllButErr : Prop :=
  ∀ (i : Instr) (s t : State), exec i s = .next t → t.err ≠ 0 → t = { s with err := t.err, cmdDone := true }

/-! ### Whole-machine rules of the state (10_state.md) -/

/-- Rule R25: ENTER sets the mark, every other command that completes clears it, an error leaves it; PUSH and RCL read
it; it is bit 2 of STATUS_OUT; it is 0 after reset. -/
def Obligations.MarkAfterEveryCommand : Prop :=
  (∀ (i : Instr) (s t : State), exec i s = .next t →
    (t.err = 0 → t.r = decide (i = .enter)) ∧ (t.err ≠ 0 → t.r = s.r)) ∧
  (∀ (s t : State) (i : Instr), exec i s = .next t → t.err = 0 → ((∃ d, i = .push d) ∨ ∃ a, i = .rcl a) →
    (s.r = true → t.y = s.y ∧ t.z = s.z ∧ t.t = s.t) ∧ (s.r = false → t.y = s.x ∧ t.z = s.y ∧ t.t = s.z)) ∧
  (∀ s : State, s.statusOut.getLsbD 2 = s.r) ∧
  State.reset.r = false

/-- BASE, C, V, ERR and CMD_DONE are inputs of no command: two states that agree on the rest go on agreeing on it, command
by command and step by step; a command leaves both the same ERR and CMD_DONE, and gives both the same flags and the same
BASE or leaves both theirs; a step gives both the same of each of these or leaves both theirs. CMD_DONE as a level that
waiting keeps is the model's reading (log entry 4). -/
def Obligations.ResultsNeverReadFlagsBaseOrErr : Prop :=
  (∀ (i : Instr) (s s' : State), s.SameInputs s' →
    ∃ t t', exec i s = .next t ∧ exec i s' = .next t' ∧ t.SameInputs t' ∧ t.err = t'.err ∧ t.cmdDone = t'.cmdDone ∧
      State.SameOrKept (fun u => (u.c, u.v)) s s' t t' ∧ State.SameOrKept State.base s s' t t') ∧
  ∀ s s' : State, s.SameInputs s' →
    ∃ t t', step s = .next t ∧ step s' = .next t' ∧ t.SameInputs t' ∧
      State.SameOrKept (fun u => (u.c, u.v)) s s' t t' ∧ State.SameOrKept State.base s s' t t' ∧
      State.SameOrKept State.err s s' t t' ∧ State.SameOrKept State.cmdDone s s' t t'

/-- C and V are written by ADD, SUB, MUL, DIV and SETWS only. -/
def Obligations.OnlyArithmeticAndSetwsWriteFlags : Prop :=
  ∀ (i : Instr) (s t : State), exec i s = .next t → (t.c ≠ s.c ∨ t.v ≠ s.v) →
    i = .add ∨ i = .sub ∨ i = .mul ∨ i = .div ∨ ∃ n, i = .setws n

/-- WS is written by SETWS only and BASE by SETBASE only, each with its own ARG, and only with a legal one. -/
def Obligations.OnlyConfigurationWritesWsAndBase : Prop :=
  ∀ (i : Instr) (s t : State), exec i s = .next t →
    (t.ws ≠ s.ws → i = .setws t.ws ∧ 1 ≤ t.ws.toNat ∧ t.ws.toNat ≤ 128) ∧
    (t.base ≠ s.base → i = .setbase t.base ∧ (t.base = 2 ∨ t.base = 8 ∨ t.base = 10 ∨ t.base = 16))

/-- The register access table: which commands can change X, Y, Z and T. -/
def Obligations.StackRegisterWriters : Prop :=
  ∀ (i : Instr) (s t : State), exec i s = .next t →
    (t.x ≠ s.x → i ≠ .enter ∧ (∀ b, i ≠ .setbase b) ∧ (∀ a, i ≠ .sto a) ∧ ∀ a d, i ≠ .stov a d) ∧
    (t.y ≠ s.y →
      i ∉ [.not, .sl, .sr, .asr, .rl, .rr] ∧ (∀ b, i ≠ .setbase b) ∧ (∀ a, i ≠ .sto a) ∧ (∀ a d, i ≠ .stov a d) ∧
      (((∃ d, i = .push d) ∨ ∃ a, i = .rcl a) → s.r = false)) ∧
    (t.z ≠ s.z →
      i ∉ [.swap, .not, .sl, .sr, .asr, .rl, .rr] ∧ (∀ b, i ≠ .setbase b) ∧ (∀ a, i ≠ .sto a) ∧
      (∀ a d, i ≠ .stov a d) ∧ (((∃ d, i = .push d) ∨ ∃ a, i = .rcl a) → s.r = false)) ∧
    (t.t ≠ s.t →
      i = .enter ∨ i = .roll ∨ (∃ n, i = .setws n) ∨ (((∃ d, i = .push d) ∨ ∃ a, i = .rcl a) ∧ s.r = false))

/-! ### Stack commands (40_stack.md) -/

/-- Rule R100: the push primitive lifts when the mark is clear, replaces X when it is set, and clears the mark. -/
def Obligations.PushPrimitiveLiftsOrReplaces : Prop :=
  ∀ (w : Word) (s : State),
    (s.r = false → pushval w s = { s with t := s.z, z := s.y, y := s.x, x := w, r := false }) ∧
    (s.r = true → pushval w s = { s with x := w, r := false })

/-- Rule R101: PUSH masks DATA to the word size and pushes it; with any other ARG or RSV its opcode is illegal. -/
def Obligations.PushMasksAndPushes : Prop :=
  (∀ data, decode 0x01000000 data = .ok (.push data)) ∧
  (∀ (cmd : CmdWord) (data : Word) (s : State), opField cmd = 0x01 → cmd ≠ 0x01000000 →
    executeCommand cmd data s = .next { s with err := 5, cmdDone := true }) ∧
  ∀ (data : Word) (s : State), s.WsLegal →
    (s.r = false →
      exec (.push data) s =
        .next { s with
          x := BitVec.ofNat 128 (data.toNat % 2 ^ s.ws.toNat), y := s.x, z := s.y, t := s.z
          r := false, err := 0, cmdDone := true }) ∧
    (s.r = true →
      exec (.push data) s =
        .next { s with
          x := BitVec.ofNat 128 (data.toNat % 2 ^ s.ws.toNat), r := false, err := 0, cmdDone := true })

/-- Rule R102: ENTER always lifts, leaves X, and sets the mark. -/
def Obligations.EnterLiftsAndMarks : Prop :=
  (∀ data, decode 0x02000000 data = .ok .enter) ∧
  ∀ s : State, exec .enter s = .next { s with y := s.x, z := s.y, t := s.z, r := true, err := 0, cmdDone := true }

/-- Rules R103, R104, R105: DROP, SWAP and ROLL; four DROPs fill the stack with T, two SWAPs and four ROLLs restore
it. -/
def Obligations.DropSwapRollMoveRegisters : Prop :=
  (∀ data, decode 0x03000000 data = .ok .drop ∧ decode 0x04000000 data = .ok .swap ∧
    decode 0x05000000 data = .ok .roll) ∧
  ∀ s : State,
    exec .drop s = .next { s with x := s.y, y := s.z, z := s.t, r := false, err := 0, cmdDone := true } ∧
    exec .swap s = .next { s with x := s.y, y := s.x, r := false, err := 0, cmdDone := true } ∧
    exec .roll s = .next { s with x := s.y, y := s.z, z := s.t, t := s.x, r := false, err := 0, cmdDone := true } ∧
    execAll [.drop, .drop, .drop, .drop] s =
      .next { s with x := s.t, y := s.t, z := s.t, r := false, err := 0, cmdDone := true } ∧
    execAll [.swap, .swap] s = .next { s with r := false, err := 0, cmdDone := true } ∧
    execAll [.roll, .roll, .roll, .roll] s = .next { s with r := false, err := 0, cmdDone := true }

/-! ### Arithmetic (00_scope.md, 41_arithmetic.md) -/

/-- Rule R9: the signed reading, its range, and that it stands for the same value modulo 2^n. -/
def Obligations.SignedReadingInRange : Prop :=
  ∀ (n : Nat) (v : Word), 1 ≤ n → n ≤ 128 → v.toNat < 2 ^ n →
    sgn n v = (if v.getLsbD (n - 1) then (v.toNat : Int) - 2 ^ n else (v.toNat : Int)) ∧
    -(2 : Int) ^ (n - 1) ≤ sgn n v ∧ sgn n v ≤ (2 : Int) ^ (n - 1) - 1 ∧
    wrap n (sgn n v) = v

/-- Rule R121: ADD, with the exact sum, the carry out, the signed overflow, and the overflow read off the sign bits. -/
def Obligations.AddGivesExactSumAndFlags : Prop :=
  (∀ data, decode 0x10000000 data = .ok .add) ∧
  ∀ s : State, s.WsLegal → s.StackMasked →
    ∃ (w : Word) (c v : Bool),
      exec .add s =
        .next { s with x := w, y := s.z, z := s.t, c := c, v := v, r := false, err := 0, cmdDone := true } ∧
      w.toNat = (s.x.toNat + s.y.toNat) % 2 ^ s.ws.toNat ∧
      (c = true ↔ 2 ^ s.ws.toNat ≤ s.x.toNat + s.y.toNat) ∧
      (v = true ↔
        ¬(-(2 : Int) ^ (s.ws.toNat - 1) ≤ sgn s.ws.toNat s.x + sgn s.ws.toNat s.y ∧
          sgn s.ws.toNat s.x + sgn s.ws.toNat s.y ≤ (2 : Int) ^ (s.ws.toNat - 1) - 1)) ∧
      (v = true ↔
        s.x.getLsbD (s.ws.toNat - 1) = s.y.getLsbD (s.ws.toNat - 1) ∧
        w.getLsbD (s.ws.toNat - 1) ≠ s.x.getLsbD (s.ws.toNat - 1))

/-- Rule R122: SUB is X - Y, with the borrow in C. -/
def Obligations.SubGivesExactDifferenceAndFlags : Prop :=
  (∀ data, decode 0x11000000 data = .ok .sub) ∧
  ∀ s : State, s.WsLegal → s.StackMasked →
    ∃ (w : Word) (c v : Bool),
      exec .sub s =
        .next { s with x := w, y := s.z, z := s.t, c := c, v := v, r := false, err := 0, cmdDone := true } ∧
      (w.toNat : Int) = ((s.x.toNat : Int) - (s.y.toNat : Int)) % 2 ^ s.ws.toNat ∧
      (c = true ↔ s.x.toNat < s.y.toNat) ∧
      (v = true ↔
        ¬(-(2 : Int) ^ (s.ws.toNat - 1) ≤ sgn s.ws.toNat s.x - sgn s.ws.toNat s.y ∧
          sgn s.ws.toNat s.x - sgn s.ws.toNat s.y ≤ (2 : Int) ^ (s.ws.toNat - 1) - 1)) ∧
      (v = true ↔
        s.x.getLsbD (s.ws.toNat - 1) ≠ s.y.getLsbD (s.ws.toNat - 1) ∧
        w.getLsbD (s.ws.toNat - 1) ≠ s.x.getLsbD (s.ws.toNat - 1))

/-- Rule R123: MUL keeps the low bits of the exact product and reports the rest through C. -/
def Obligations.MulGivesExactProductAndFlags : Prop :=
  (∀ data, decode 0x12000000 data = .ok .mul) ∧
  ∀ s : State, s.WsLegal → s.StackMasked →
    ∃ (w : Word) (c v : Bool),
      exec .mul s =
        .next { s with x := w, y := s.z, z := s.t, c := c, v := v, r := false, err := 0, cmdDone := true } ∧
      w.toNat = (s.x.toNat * s.y.toNat) % 2 ^ s.ws.toNat ∧
      (c = true ↔ 2 ^ s.ws.toNat ≤ s.x.toNat * s.y.toNat) ∧
      (v = true ↔
        ¬(-(2 : Int) ^ (s.ws.toNat - 1) ≤ sgn s.ws.toNat s.x * sgn s.ws.toNat s.y ∧
          sgn s.ws.toNat s.x * sgn s.ws.toNat s.y ≤ (2 : Int) ^ (s.ws.toNat - 1) - 1))

/-- Rule R124: DIV is the unsigned floor quotient with both flags 0, or DivideByZero with only ERR written. -/
def Obligations.DivGivesFloorQuotientOrError : Prop :=
  (∀ data, decode 0x13000000 data = .ok .div) ∧
  ∀ s : State,
    (s.y ≠ 0 →
      ∃ q : Word,
        exec .div s =
          .next { s with x := q, y := s.z, z := s.t, c := false, v := false, r := false, err := 0, cmdDone := true } ∧
        q.toNat = s.x.toNat / s.y.toNat ∧ q.toNat ≤ s.x.toNat) ∧
    (s.y = 0 → exec .div s = .next { s with err := 1, cmdDone := true })

/-- The common shape of the four: the result, below 2^ws, replaces X, the stack drops, both flags are rewritten, nothing
else changes. -/
def Obligations.ArithmeticShape : Prop :=
  ∀ (i : Instr) (s t : State), i ∈ [.add, .sub, .mul, .div] → s.WsLegal → s.StackMasked →
    exec i s = .next t → t.err = 0 →
    t.x.toNat < 2 ^ s.ws.toNat ∧
    t = { s with x := t.x, y := s.z, z := s.t, c := t.c, v := t.v, r := false, err := 0, cmdDone := true }

/-- ADD and MUL give the same next state when X and Y are exchanged. -/
def Obligations.AddAndMulCommute : Prop :=
  ∀ s : State,
    exec .add { s with x := s.y, y := s.x } = exec .add s ∧ exec .mul { s with x := s.y, y := s.x } = exec .mul s

/-- The zero laws: x + 0 = x, x - 0 = x and x * 0 = 0, each with both flags 0; 0 / y = 0 for y other than 0. -/
def Obligations.ArithmeticZeroLaws : Prop :=
  ∀ s : State, s.WsLegal → s.StackMasked →
    (s.y = 0 →
      exec .add s = .next { s with y := s.z, z := s.t, c := false, v := false, r := false, err := 0, cmdDone := true } ∧
      exec .sub s = .next { s with y := s.z, z := s.t, c := false, v := false, r := false, err := 0, cmdDone := true } ∧
      exec .mul s =
        .next { s with
          x := 0, y := s.z, z := s.t, c := false, v := false, r := false, err := 0, cmdDone := true }) ∧
    (s.x = 0 → s.y ≠ 0 →
      exec .div s = .next { s with y := s.z, z := s.t, c := false, v := false, r := false, err := 0, cmdDone := true })

/-! ### Bitwise logic (42_bitwise.md) -/

/-- Rules R150 to R153: AND, OR, XOR of X and Y replace X (the mask changes nothing), the stack drops, the flags stay. -/
def Obligations.AndOrXorCombine : Prop :=
  (∀ data, decode 0x20000000 data = .ok .and ∧ decode 0x21000000 data = .ok .or ∧ decode 0x22000000 data = .ok .xor) ∧
  ∀ s : State, s.WsLegal → s.StackMasked →
    exec .and s =
      .next { s with x := s.x &&& s.y, y := s.z, z := s.t, r := false, err := 0, cmdDone := true } ∧
    exec .or s =
      .next { s with x := s.x ||| s.y, y := s.z, z := s.t, r := false, err := 0, cmdDone := true } ∧
    exec .xor s =
      .next { s with x := s.x ^^^ s.y, y := s.z, z := s.t, r := false, err := 0, cmdDone := true }

/-- Rule R154: NOT gives MASK(ws) - X in place; two NOTs restore X. -/
def Obligations.NotComplementsWithinWordSize : Prop :=
  (∀ data, decode 0x23000000 data = .ok .not) ∧
  ∀ s : State, s.WsLegal → s.StackMasked →
    exec .not s =
      .next { s with
        x := BitVec.ofNat 128 (2 ^ s.ws.toNat - 1 - s.x.toNat), r := false, err := 0, cmdDone := true } ∧
    execAll [.not, .not] s = .next { s with r := false, err := 0, cmdDone := true }

/-! ### Shifts and rotates (43_shift_rotate.md) -/

/-- Rule R160: the five functions as the rule writes them, for every word size, every value and every amount. -/
def Obligations.ShiftFunctionsMatchFormulas : Prop :=
  ∀ (n : Nat) (x : Word) (k : Nat), 1 ≤ n → n ≤ 128 → x.toNat < 2 ^ n →
    (shl n x k).toNat = (x.toNat <<< k) &&& (2 ^ n - 1) ∧ (n ≤ k → shl n x k = 0) ∧
    (shr n x k).toNat = x.toNat >>> k ∧ (n ≤ k → shr n x k = 0) ∧
    ((asr n x k).toNat : Int) = (sgn n x / 2 ^ k) % 2 ^ n ∧
    (n - 1 ≤ k → asr n x k = if x.getLsbD (n - 1) then mask n else 0) ∧
    (rol n x k).toNat = ((x.toNat <<< (k % n)) ||| (x.toNat >>> (n - k % n))) &&& (2 ^ n - 1) ∧
    (ror n x k).toNat = ((x.toNat >>> (k % n)) ||| (x.toNat <<< (n - k % n))) &&& (2 ^ n - 1)

/-- Rules R161, R163 to R167: the unary commands shift or rotate X by 1 in place and leave the flags. -/
def Obligations.UnaryShiftsMoveByOne : Prop :=
  (∀ data, decode 0x30000000 data = .ok .sl ∧ decode 0x31000000 data = .ok .sr ∧ decode 0x32000000 data = .ok .asr ∧
    decode 0x33000000 data = .ok .rl ∧ decode 0x34000000 data = .ok .rr) ∧
  ∀ s : State, s.WsLegal → s.StackMasked →
    (∃ w : Word, exec .sl s = .next { s with x := w, r := false, err := 0, cmdDone := true } ∧
      w.toNat = 2 * s.x.toNat % 2 ^ s.ws.toNat) ∧
    (∃ w : Word, exec .sr s = .next { s with x := w, r := false, err := 0, cmdDone := true } ∧
      w.toNat = s.x.toNat / 2) ∧
    (∃ w : Word, exec .asr s = .next { s with x := w, r := false, err := 0, cmdDone := true } ∧
      w.toNat = s.x.toNat / 2 + s.x.toNat / 2 ^ (s.ws.toNat - 1) * 2 ^ (s.ws.toNat - 1)) ∧
    (∃ w : Word, exec .rl s = .next { s with x := w, r := false, err := 0, cmdDone := true } ∧
      w.toNat = 2 * s.x.toNat % 2 ^ s.ws.toNat + s.x.toNat / 2 ^ (s.ws.toNat - 1)) ∧
    (∃ w : Word, exec .rr s = .next { s with x := w, r := false, err := 0, cmdDone := true } ∧
      w.toNat = s.x.toNat / 2 + s.x.toNat % 2 * 2 ^ (s.ws.toNat - 1))

/-- Rules R162, R168 to R172: the binary commands shift or rotate X by the whole of Y, which is consumed, and leave the
flags; amounts of ws and more give 0, 0 and the sign fill; a rotation right is the rotation left by the rest. -/
def Obligations.BinaryShiftsMoveByY : Prop :=
  (∀ data, decode 0x38000000 data = .ok .sly ∧ decode 0x39000000 data = .ok .sry ∧
    decode 0x3A000000 data = .ok .asry ∧ decode 0x3B000000 data = .ok .rly ∧ decode 0x3C000000 data = .ok .rry) ∧
  ∀ s : State, s.WsLegal → s.StackMasked →
    exec .sly s =
      .next { s with
        x := shl s.ws.toNat s.x s.y.toNat, y := s.z, z := s.t, r := false, err := 0, cmdDone := true } ∧
    exec .sry s =
      .next { s with
        x := shr s.ws.toNat s.x s.y.toNat, y := s.z, z := s.t, r := false, err := 0, cmdDone := true } ∧
    exec .asry s =
      .next { s with
        x := asr s.ws.toNat s.x s.y.toNat, y := s.z, z := s.t, r := false, err := 0, cmdDone := true } ∧
    exec .rly s =
      .next { s with
        x := rol s.ws.toNat s.x s.y.toNat, y := s.z, z := s.t, r := false, err := 0, cmdDone := true } ∧
    exec .rry s =
      .next { s with
        x := ror s.ws.toNat s.x s.y.toNat, y := s.z, z := s.t, r := false, err := 0, cmdDone := true } ∧
    (s.ws.toNat ≤ s.y.toNat →
      shl s.ws.toNat s.x s.y.toNat = 0 ∧ shr s.ws.toNat s.x s.y.toNat = 0 ∧
      asr s.ws.toNat s.x s.y.toNat = if s.x.getLsbD (s.ws.toNat - 1) then mask s.ws.toNat else 0) ∧
    (s.y.toNat % s.ws.toNat = 0 →
      rol s.ws.toNat s.x s.y.toNat = s.x ∧ ror s.ws.toNat s.x s.y.toNat = s.x) ∧
    (s.y = 0 →
      shl s.ws.toNat s.x s.y.toNat = s.x ∧ shr s.ws.toNat s.x s.y.toNat = s.x ∧
      asr s.ws.toNat s.x s.y.toNat = s.x) ∧
    ror s.ws.toNat s.x s.y.toNat = rol s.ws.toNat s.x (s.ws.toNat - s.y.toNat % s.ws.toNat)

/-- A rotation is a permutation of the bits below n: bit i moves by the amount, around n; right undoes left. -/
def Obligations.RotationsPermuteBits : Prop :=
  ∀ (n : Nat) (x : Word) (k : Nat), 1 ≤ n → n ≤ 128 → x.toNat < 2 ^ n →
    (∀ i < n, (rol n x k).getLsbD ((i + k) % n) = x.getLsbD i) ∧
    (∀ i < n, (ror n x k).getLsbD i = x.getLsbD ((i + k) % n)) ∧
    ror n (rol n x k) k = x ∧ rol n (ror n x k) k = x

/-! ### Configuration (44_config.md) -/

/-- Rule R190: SETBASE with one of the four radix values writes BASE and no stored value; with any other it raises
InvalidBase. -/
def Obligations.SetbaseWritesBaseOrError : Prop :=
  (∀ (arg : Field8) (data : Word), decode (0x40#8 ++ arg ++ 0#16) data = .ok (.setbase arg)) ∧
  ∀ (arg : Field8) (s : State),
    ((arg = 2 ∨ arg = 8 ∨ arg = 10 ∨ arg = 16) →
      exec (.setbase arg) s = .next { s with base := arg, r := false, err := 0, cmdDone := true }) ∧
    (¬(arg = 2 ∨ arg = 8 ∨ arg = 10 ∨ arg = 16) →
      exec (.setbase arg) s = .next { s with err := 4, cmdDone := true })

/-- Rule R191: a valid SETWS writes WS, masks every register and slot, clears both flags and changes nothing else; any
other size raises InvalidWordSize. -/
def Obligations.SetwsMasksEverythingOrError : Prop :=
  (∀ (arg : Field8) (data : Word), decode (0x41#8 ++ arg ++ 0#16) data = .ok (.setws arg)) ∧
  ∀ (arg : Field8) (s : State), Memory.wf s.mem = true →
    (1 ≤ arg.toNat ∧ arg.toNat ≤ 128 →
      ∃ t, exec (.setws arg) s = .next t ∧
        t = { s with
          x := t.x, y := t.y, z := t.z, t := t.t, mem := t.mem, ws := arg, c := false, v := false
          r := false, err := 0, cmdDone := true } ∧
        t.x.toNat = s.x.toNat % 2 ^ arg.toNat ∧ t.y.toNat = s.y.toNat % 2 ^ arg.toNat ∧
        t.z.toNat = s.z.toNat % 2 ^ arg.toNat ∧ t.t.toNat = s.t.toNat % 2 ^ arg.toNat ∧
        ∀ i < 16, (slotRead i t).toNat = (slotRead i s).toNat % 2 ^ arg.toNat) ∧
    (¬(1 ≤ arg.toNat ∧ arg.toNat ≤ 128) → exec (.setws arg) s = .next { s with err := 3, cmdDone := true })

/-- Rules R192, R193: narrowing loses the bits above the new size for good; widening keeps every numeric value, and the
value's signed reading at the new size is not negative. -/
def Obligations.NarrowingLosesWideningKeeps : Prop :=
  (∀ (n m : Field8) (s : State), Memory.wf s.mem = true → 1 ≤ n.toNat → n.toNat ≤ m.toNat → m.toNat ≤ 128 →
    ∃ t, execAll [.setws n, .setws m] s = .next t ∧ t.ws = m ∧
      t.x.toNat = s.x.toNat % 2 ^ n.toNat ∧ t.y.toNat = s.y.toNat % 2 ^ n.toNat ∧
      t.z.toNat = s.z.toNat % 2 ^ n.toNat ∧ t.t.toNat = s.t.toNat % 2 ^ n.toNat ∧
      ∀ i < 16, (slotRead i t).toNat = (slotRead i s).toNat % 2 ^ n.toNat) ∧
  ∀ (m : Field8) (s : State), s.Inv → s.ws.toNat ≤ m.toNat → m.toNat ≤ 128 →
    ∃ t, exec (.setws m) s = .next t ∧ t.ws = m ∧ t.x = s.x ∧ t.y = s.y ∧ t.z = s.z ∧ t.t = s.t ∧
      (∀ i < 16, slotRead i t = slotRead i s) ∧
      (s.ws.toNat < m.toNat → ∀ v : Word, v.toNat < 2 ^ s.ws.toNat → sgn t.ws.toNat v = v.toNat)

/-- A valid SETWS and a valid SETBASE give the same state in either order. -/
def Obligations.ConfigurationOrderDoesNotMatter : Prop :=
  ∀ (n b : Field8) (s : State), (Instr.setws n).argLegal = true → (Instr.setbase b).argLegal = true →
    ∃ t, execAll [.setws n, .setbase b] s = .next t ∧ execAll [.setbase b, .setws n] s = .next t ∧
      t.ws = n ∧ t.base = b

/-! ### Memory (20_memory.md, 45_memory_ops.md) -/

/-- Rule R200: STO, STOV and RCL with an index above 15 raise InvalidMemoryIndex and change only ERR. -/
def Obligations.IndexAboveFifteenIsAnError : Prop :=
  ∀ (arg : Field8) (data : Word) (s : State), 15 < arg.toNat →
    exec (.sto arg) s = .next { s with err := 2, cmdDone := true } ∧
    exec (.stov arg data) s = .next { s with err := 2, cmdDone := true } ∧
    exec (.rcl arg) s = .next { s with err := 2, cmdDone := true }

/-- Rule R201: STO i makes slot i hold X and changes no other slot and no register but R and ERR. -/
def Obligations.StoStoresX : Prop :=
  (∀ (arg : Field8) (data : Word), decode (0x50#8 ++ arg ++ 0#16) data = .ok (.sto arg)) ∧
  (∀ (arg : Field8) (s : State), 15 < arg.toNat → exec (.sto arg) s = .next { s with err := 2, cmdDone := true }) ∧
  ∀ (arg : Field8) (s : State), arg.toNat ≤ 15 → s.WsLegal → s.StackMasked → Memory.wf s.mem = true →
    ∃ t, exec (.sto arg) s = .next t ∧
      t = { s with mem := t.mem, r := false, err := 0, cmdDone := true } ∧
      slotRead arg.toNat t = s.x ∧ ∀ k, k ≠ arg.toNat → slotRead k t = slotRead k s

/-- Rule R202: STOV i, value makes slot i hold the masked DATA and changes no other slot and no register but R and
ERR. -/
def Obligations.StovStoresMaskedData : Prop :=
  (∀ (arg : Field8) (data : Word), decode (0x51#8 ++ arg ++ 0#16) data = .ok (.stov arg data)) ∧
  (∀ (arg : Field8) (data : Word) (s : State), 15 < arg.toNat →
    exec (.stov arg data) s = .next { s with err := 2, cmdDone := true }) ∧
  ∀ (arg : Field8) (data : Word) (s : State), arg.toNat ≤ 15 → s.WsLegal → Memory.wf s.mem = true →
    ∃ t, exec (.stov arg data) s = .next t ∧
      t = { s with mem := t.mem, r := false, err := 0, cmdDone := true } ∧
      (slotRead arg.toNat t).toNat = data.toNat % 2 ^ s.ws.toNat ∧
      ∀ k, k ≠ arg.toNat → slotRead k t = slotRead k s

/-- Rule R203: RCL i pushes slot i, lifting when the mark is clear and replacing X when it is set; the slots stay. -/
def Obligations.RclPushesSlot : Prop :=
  (∀ (arg : Field8) (data : Word), decode (0x52#8 ++ arg ++ 0#16) data = .ok (.rcl arg)) ∧
  ∀ (arg : Field8) (s : State),
    (15 < arg.toNat → exec (.rcl arg) s = .next { s with err := 2, cmdDone := true }) ∧
    (arg.toNat ≤ 15 → s.r = false →
      exec (.rcl arg) s =
        .next { s with
          x := slotRead arg.toNat s, y := s.x, z := s.y, t := s.z, r := false, err := 0, cmdDone := true }) ∧
    (arg.toNat ≤ 15 → s.r = true →
      exec (.rcl arg) s = .next { s with x := slotRead arg.toNat s, r := false, err := 0, cmdDone := true })

/-- Rule R62: a slot keeps its value across every command that does not write it; SETWS re-masks it. -/
def Obligations.SlotKeepsItsValue : Prop :=
  (∀ (i : Instr) (k : Nat) (s t : State), ¬WritesSlot i k → exec i s = .next t → slotRead k t = slotRead k s) ∧
  ∀ (n : Field8) (k : Nat) (s t : State), Memory.wf s.mem = true → exec (.setws n) s = .next t → t.err = 0 →
    (slotRead k t).toNat = (slotRead k s).toNat % 2 ^ n.toNat

/-- The promise of 20_memory.md section 5: a RCL gives what a slot was left with, whatever commands that do not write it stood between; so it gives
the X that a STO stored there. -/
def Obligations.RecallGivesWhatWasStored : Prop :=
  (∀ (between : List Instr) (arg : Field8) (s : State), arg.toNat ≤ 15 →
    (∀ i ∈ between, ¬WritesSlot i arg.toNat) →
    ∃ t, execAll (between ++ [.rcl arg]) s = .next t ∧ t.x = slotRead arg.toNat s) ∧
  ∀ (between : List Instr) (arg : Field8) (s : State), arg.toNat ≤ 15 → s.Inv →
    (∀ i ∈ between, ¬WritesSlot i arg.toNat) →
    ∃ t, execAll (.sto arg :: between ++ [.rcl arg]) s = .next t ∧ t.x = s.x

/-- Repeating STO i with the same X leaves the same state (20_memory.md section 3). -/
def Obligations.RepeatedStoLeavesSameState : Prop :=
  ∀ (arg : Field8) (s : State), Memory.wf s.mem = true → execAll [.sto arg, .sto arg] s = exec (.sto arg) s

/-! ### Ports and text (10_state.md, 30_encoding.md) -/

/-- Rule R28: STATUS_OUT shows its fields, with reserved bits 0; and the other ports show the stack (10_state.md
section 5). -/
def Obligations.PortsShowState : Prop :=
  (∀ s : State,
    s.xOut = s.x ∧ s.yOut = s.y ∧ s.zOut = s.z ∧ s.tOut = s.t ∧
    s.statusOut.getLsbD 0 = s.c ∧ s.statusOut.getLsbD 1 = s.v ∧ s.statusOut.getLsbD 2 = s.r ∧
    s.statusOut.getLsbD 3 = false ∧ s.statusOut.extractLsb' 4 4 = s.err ∧ s.statusOut.extractLsb' 8 8 = s.ws ∧
    s.statusOut.extractLsb' 16 8 = s.base ∧ s.statusOut.extractLsb' 24 8 = 0) ∧
  State.reset.statusOut = 0x000A4000

/-- Rule R81: each pseudo-instruction assembles to its expansion's command. -/
def Obligations.PseudoInstructionsExpand : Prop :=
  assembleLine "ASL".toList = assembleLine "SL".toList ∧ assembleLine "SL".toList = .ok (some ⟨0x30000000, 0⟩) ∧
  assembleLine "ASLY".toList = assembleLine "SLY".toList ∧ assembleLine "SLY".toList = .ok (some ⟨0x38000000, 0⟩) ∧
  assembleLine "BIN".toList = assembleLine "SETBASE 2".toList ∧
  assembleLine "SETBASE 2".toList = .ok (some ⟨0x40020000, 0⟩) ∧
  assembleLine "OCT".toList = assembleLine "SETBASE 8".toList ∧
  assembleLine "SETBASE 8".toList = .ok (some ⟨0x40080000, 0⟩) ∧
  assembleLine "DEC".toList = assembleLine "SETBASE 10".toList ∧
  assembleLine "SETBASE 10".toList = .ok (some ⟨0x400A0000, 0⟩) ∧
  assembleLine "HEX".toList = assembleLine "SETBASE 16".toList ∧
  assembleLine "SETBASE 16".toList = .ok (some ⟨0x40100000, 0⟩) ∧
  assembleLine "RDN".toList = assembleLine "ROLL".toList ∧ assembleLine "ROLL".toList = .ok (some ⟨0x05000000, 0⟩)

/-- Each of the 22 mnemonics of format N assembles to its command word of 30_encoding.md section 3, and one line of each
other format does. White space and a comment on a line are read as log entry 13 says. -/
def Obligations.AssemblerEncodesEachFormat : Prop :=
  (∀ row ∈ ([("ENTER", 0x02000000), ("DROP", 0x03000000), ("SWAP", 0x04000000), ("ROLL", 0x05000000)] ++
      [("ADD", 0x10000000), ("SUB", 0x11000000), ("MUL", 0x12000000), ("DIV", 0x13000000)] ++
      [("AND", 0x20000000), ("OR", 0x21000000), ("XOR", 0x22000000), ("NOT", 0x23000000)] ++
      [("SL", 0x30000000), ("SR", 0x31000000), ("ASR", 0x32000000), ("RL", 0x33000000), ("RR", 0x34000000)] ++
      [("SLY", 0x38000000), ("SRY", 0x39000000), ("ASRY", 0x3A000000), ("RLY", 0x3B000000), ("RRY", 0x3C000000)] : List (String × CmdWord)),
    assembleLine row.1.toList = .ok (some ⟨row.2, 0⟩)) ∧
  assembleLine "PUSH 0x12C ; 300".toList = .ok (some ⟨0x01000000, 300⟩) ∧
  assembleLine "SETWS 128".toList = .ok (some ⟨0x41800000, 0⟩) ∧
  assembleLine "STO 3".toList = .ok (some ⟨0x50030000, 0⟩) ∧
  assembleLine "STOV 15, 0x1FF".toList = .ok (some ⟨0x510F0000, 0x1FF⟩) ∧
  assembleLine "RCL 16".toList = .ok (some ⟨0x52100000, 0⟩)
end

