-- ==== Sys2Proof/Laws/Decode.lean ====
section
/-! SUPPORT. Packing and unpacking the fields of a command word. -/

namespace Sys2Proof

@[simp] theorem opField_packCmd (op arg : Field8) : opField (packCmd op arg) = op := by
  apply BitVec.eq_of_getLsbD_eq
  intro i hi
  simp only [opField, packCmd, BitVec.getLsbD_extractLsb', BitVec.getLsbD_append]
  simp [hi, show ¬ 24 + i < 16 by omega, show ¬ 24 + i - 16 < 8 by omega, show 24 + i - 16 - 8 = i by omega]

@[simp] theorem argField_packCmd (op arg : Field8) : argField (packCmd op arg) = arg := by
  apply BitVec.eq_of_getLsbD_eq
  intro i hi
  simp only [argField, packCmd, BitVec.getLsbD_extractLsb', BitVec.getLsbD_append]
  simp [hi, show ¬ 16 + i < 16 by omega, show 16 + i - 16 = i by omega]

@[simp] theorem rsvField_packCmd (op arg : Field8) : rsvField (packCmd op arg) = 0 := by
  apply BitVec.eq_of_getLsbD_eq
  intro i hi
  simp only [rsvField, packCmd, BitVec.getLsbD_extractLsb', BitVec.getLsbD_append]
  simp [hi]

/-- A command word is its three fields. -/
theorem packCmd_fields {cmd : CmdWord} (h : rsvField cmd = 0) : packCmd (opField cmd) (argField cmd) = cmd := by
  apply BitVec.eq_of_getLsbD_eq
  intro i hi
  have hr : ∀ j, j < 16 → cmd.getLsbD j = false := by
    intro j hj
    have := congrArg (fun b => BitVec.getLsbD b j) h
    simpa [rsvField, BitVec.getLsbD_extractLsb', hj] using this
  simp only [opField, argField, packCmd, BitVec.getLsbD_extractLsb', BitVec.getLsbD_append]
  by_cases h16 : i < 16
  · simp [h16, hr i h16]
  · by_cases h24 : i - 16 < 8
    · simp [h16, h24, show 16 + (i - 16) = i by omega]
    · simp [h16, h24, show i - 16 - 8 < 8 by omega, show 24 + (i - 16 - 8) = i by omega]

/-- A word packed from an opcode that uses ARG is well formed, whatever its ARG. -/
theorem wordWellFormed_packArg (op : Field8) (h : op ∈ opsWithArg) (arg : Field8) :
    wordWellFormed (packCmd op arg) = true := by
  have h1 : (packCmd op arg).extractLsb' 24 8 = op := opField_packCmd op arg
  have h2 : (packCmd op arg).extractLsb' 0 16 = 0 := rsvField_packCmd op arg
  simp [wordWellFormed, h1, h2, h]

end Sys2Proof
end

