-- ==== Sys2Proof/Laws/State.lean ====
section
/-! SUPPORT. One lemma per field per named update of the state, each true by rfl, so that no proof unfolds a record
update. A lemma `<update>_<field>` says what the update leaves in the field. -/

namespace Sys2Proof.Machine

variable (s : State)

/-! ### lift -/

@[simp] theorem lift_x : (lift s).x = s.x := rfl
@[simp] theorem lift_y : (lift s).y = s.x := rfl
@[simp] theorem lift_z : (lift s).z = s.y := rfl
@[simp] theorem lift_t : (lift s).t = s.z := rfl
@[simp] theorem lift_mem : (lift s).mem = s.mem := rfl
@[simp] theorem lift_ws : (lift s).ws = s.ws := rfl
@[simp] theorem lift_base : (lift s).base = s.base := rfl
@[simp] theorem lift_c : (lift s).c = s.c := rfl
@[simp] theorem lift_v : (lift s).v = s.v := rfl
@[simp] theorem lift_r : (lift s).r = s.r := rfl
@[simp] theorem lift_err : (lift s).err = s.err := rfl
@[simp] theorem lift_cmdDone : (lift s).cmdDone = s.cmdDone := rfl
@[simp] theorem lift_host : (lift s).host = s.host := rfl

/-! ### drop3 -/

@[simp] theorem drop3_x : (drop3 s).x = s.x := rfl
@[simp] theorem drop3_y : (drop3 s).y = s.z := rfl
@[simp] theorem drop3_z : (drop3 s).z = s.t := rfl
@[simp] theorem drop3_t : (drop3 s).t = s.t := rfl
@[simp] theorem drop3_mem : (drop3 s).mem = s.mem := rfl
@[simp] theorem drop3_ws : (drop3 s).ws = s.ws := rfl
@[simp] theorem drop3_base : (drop3 s).base = s.base := rfl
@[simp] theorem drop3_c : (drop3 s).c = s.c := rfl
@[simp] theorem drop3_v : (drop3 s).v = s.v := rfl
@[simp] theorem drop3_r : (drop3 s).r = s.r := rfl
@[simp] theorem drop3_err : (drop3 s).err = s.err := rfl
@[simp] theorem drop3_cmdDone : (drop3 s).cmdDone = s.cmdDone := rfl
@[simp] theorem drop3_host : (drop3 s).host = s.host := rfl

/-! ### setX -/

@[simp] theorem setX_x (w : Word) : (setX w s).x = w := rfl
@[simp] theorem setX_y (w : Word) : (setX w s).y = s.y := rfl
@[simp] theorem setX_z (w : Word) : (setX w s).z = s.z := rfl
@[simp] theorem setX_t (w : Word) : (setX w s).t = s.t := rfl
@[simp] theorem setX_mem (w : Word) : (setX w s).mem = s.mem := rfl
@[simp] theorem setX_ws (w : Word) : (setX w s).ws = s.ws := rfl
@[simp] theorem setX_base (w : Word) : (setX w s).base = s.base := rfl
@[simp] theorem setX_c (w : Word) : (setX w s).c = s.c := rfl
@[simp] theorem setX_v (w : Word) : (setX w s).v = s.v := rfl
@[simp] theorem setX_r (w : Word) : (setX w s).r = s.r := rfl
@[simp] theorem setX_err (w : Word) : (setX w s).err = s.err := rfl
@[simp] theorem setX_cmdDone (w : Word) : (setX w s).cmdDone = s.cmdDone := rfl
@[simp] theorem setX_host (w : Word) : (setX w s).host = s.host := rfl

/-! ### replaceTop -/

@[simp] theorem replaceTop_x (w : Word) : (replaceTop w s).x = w := rfl
@[simp] theorem replaceTop_y (w : Word) : (replaceTop w s).y = s.z := rfl
@[simp] theorem replaceTop_z (w : Word) : (replaceTop w s).z = s.t := rfl
@[simp] theorem replaceTop_t (w : Word) : (replaceTop w s).t = s.t := rfl
@[simp] theorem replaceTop_mem (w : Word) : (replaceTop w s).mem = s.mem := rfl
@[simp] theorem replaceTop_ws (w : Word) : (replaceTop w s).ws = s.ws := rfl
@[simp] theorem replaceTop_base (w : Word) : (replaceTop w s).base = s.base := rfl
@[simp] theorem replaceTop_c (w : Word) : (replaceTop w s).c = s.c := rfl
@[simp] theorem replaceTop_v (w : Word) : (replaceTop w s).v = s.v := rfl
@[simp] theorem replaceTop_r (w : Word) : (replaceTop w s).r = s.r := rfl
@[simp] theorem replaceTop_err (w : Word) : (replaceTop w s).err = s.err := rfl
@[simp] theorem replaceTop_cmdDone (w : Word) : (replaceTop w s).cmdDone = s.cmdDone := rfl
@[simp] theorem replaceTop_host (w : Word) : (replaceTop w s).host = s.host := rfl

/-! ### setFlags -/

@[simp] theorem setFlags_x (c v : Bool) : (setFlags c v s).x = s.x := rfl
@[simp] theorem setFlags_y (c v : Bool) : (setFlags c v s).y = s.y := rfl
@[simp] theorem setFlags_z (c v : Bool) : (setFlags c v s).z = s.z := rfl
@[simp] theorem setFlags_t (c v : Bool) : (setFlags c v s).t = s.t := rfl
@[simp] theorem setFlags_mem (c v : Bool) : (setFlags c v s).mem = s.mem := rfl
@[simp] theorem setFlags_ws (c v : Bool) : (setFlags c v s).ws = s.ws := rfl
@[simp] theorem setFlags_base (c v : Bool) : (setFlags c v s).base = s.base := rfl
@[simp] theorem setFlags_c (c v : Bool) : (setFlags c v s).c = c := rfl
@[simp] theorem setFlags_v (c v : Bool) : (setFlags c v s).v = v := rfl
@[simp] theorem setFlags_r (c v : Bool) : (setFlags c v s).r = s.r := rfl
@[simp] theorem setFlags_err (c v : Bool) : (setFlags c v s).err = s.err := rfl
@[simp] theorem setFlags_cmdDone (c v : Bool) : (setFlags c v s).cmdDone = s.cmdDone := rfl
@[simp] theorem setFlags_host (c v : Bool) : (setFlags c v s).host = s.host := rfl

/-! ### applyArith -/

@[simp] theorem applyArith_x (a : ArithResult) : (applyArith s a).x = a.r := rfl
@[simp] theorem applyArith_y (a : ArithResult) : (applyArith s a).y = s.z := rfl
@[simp] theorem applyArith_z (a : ArithResult) : (applyArith s a).z = s.t := rfl
@[simp] theorem applyArith_t (a : ArithResult) : (applyArith s a).t = s.t := rfl
@[simp] theorem applyArith_mem (a : ArithResult) : (applyArith s a).mem = s.mem := rfl
@[simp] theorem applyArith_ws (a : ArithResult) : (applyArith s a).ws = s.ws := rfl
@[simp] theorem applyArith_base (a : ArithResult) : (applyArith s a).base = s.base := rfl
@[simp] theorem applyArith_c (a : ArithResult) : (applyArith s a).c = a.c := rfl
@[simp] theorem applyArith_v (a : ArithResult) : (applyArith s a).v = a.v := rfl
@[simp] theorem applyArith_r (a : ArithResult) : (applyArith s a).r = s.r := rfl
@[simp] theorem applyArith_err (a : ArithResult) : (applyArith s a).err = s.err := rfl
@[simp] theorem applyArith_cmdDone (a : ArithResult) : (applyArith s a).cmdDone = s.cmdDone := rfl
@[simp] theorem applyArith_host (a : ArithResult) : (applyArith s a).host = s.host := rfl

/-! ### applyBitwise -/

@[simp] theorem applyBitwise_x (g : Word) : (applyBitwise g s).x = maskTo s.ws.toNat g := rfl
@[simp] theorem applyBitwise_y (g : Word) : (applyBitwise g s).y = s.z := rfl
@[simp] theorem applyBitwise_z (g : Word) : (applyBitwise g s).z = s.t := rfl
@[simp] theorem applyBitwise_t (g : Word) : (applyBitwise g s).t = s.t := rfl
@[simp] theorem applyBitwise_mem (g : Word) : (applyBitwise g s).mem = s.mem := rfl
@[simp] theorem applyBitwise_ws (g : Word) : (applyBitwise g s).ws = s.ws := rfl
@[simp] theorem applyBitwise_base (g : Word) : (applyBitwise g s).base = s.base := rfl
@[simp] theorem applyBitwise_c (g : Word) : (applyBitwise g s).c = s.c := rfl
@[simp] theorem applyBitwise_v (g : Word) : (applyBitwise g s).v = s.v := rfl
@[simp] theorem applyBitwise_r (g : Word) : (applyBitwise g s).r = s.r := rfl
@[simp] theorem applyBitwise_err (g : Word) : (applyBitwise g s).err = s.err := rfl
@[simp] theorem applyBitwise_cmdDone (g : Word) : (applyBitwise g s).cmdDone = s.cmdDone := rfl
@[simp] theorem applyBitwise_host (g : Word) : (applyBitwise g s).host = s.host := rfl

/-! ### setBase -/

@[simp] theorem setBase_x (b : Field8) : (setBase b s).x = s.x := rfl
@[simp] theorem setBase_y (b : Field8) : (setBase b s).y = s.y := rfl
@[simp] theorem setBase_z (b : Field8) : (setBase b s).z = s.z := rfl
@[simp] theorem setBase_t (b : Field8) : (setBase b s).t = s.t := rfl
@[simp] theorem setBase_mem (b : Field8) : (setBase b s).mem = s.mem := rfl
@[simp] theorem setBase_ws (b : Field8) : (setBase b s).ws = s.ws := rfl
@[simp] theorem setBase_base (b : Field8) : (setBase b s).base = b := rfl
@[simp] theorem setBase_c (b : Field8) : (setBase b s).c = s.c := rfl
@[simp] theorem setBase_v (b : Field8) : (setBase b s).v = s.v := rfl
@[simp] theorem setBase_r (b : Field8) : (setBase b s).r = s.r := rfl
@[simp] theorem setBase_err (b : Field8) : (setBase b s).err = s.err := rfl
@[simp] theorem setBase_cmdDone (b : Field8) : (setBase b s).cmdDone = s.cmdDone := rfl
@[simp] theorem setBase_host (b : Field8) : (setBase b s).host = s.host := rfl

/-! ### slotWrite -/

@[simp] theorem slotWrite_x (i : Nat) (w : Word) : (slotWrite i w s).x = s.x := rfl
@[simp] theorem slotWrite_y (i : Nat) (w : Word) : (slotWrite i w s).y = s.y := rfl
@[simp] theorem slotWrite_z (i : Nat) (w : Word) : (slotWrite i w s).z = s.z := rfl
@[simp] theorem slotWrite_t (i : Nat) (w : Word) : (slotWrite i w s).t = s.t := rfl
@[simp] theorem slotWrite_mem (i : Nat) (w : Word) : (slotWrite i w s).mem = Memory.write s.mem i w := rfl
@[simp] theorem slotWrite_ws (i : Nat) (w : Word) : (slotWrite i w s).ws = s.ws := rfl
@[simp] theorem slotWrite_base (i : Nat) (w : Word) : (slotWrite i w s).base = s.base := rfl
@[simp] theorem slotWrite_c (i : Nat) (w : Word) : (slotWrite i w s).c = s.c := rfl
@[simp] theorem slotWrite_v (i : Nat) (w : Word) : (slotWrite i w s).v = s.v := rfl
@[simp] theorem slotWrite_r (i : Nat) (w : Word) : (slotWrite i w s).r = s.r := rfl
@[simp] theorem slotWrite_err (i : Nat) (w : Word) : (slotWrite i w s).err = s.err := rfl
@[simp] theorem slotWrite_cmdDone (i : Nat) (w : Word) : (slotWrite i w s).cmdDone = s.cmdDone := rfl
@[simp] theorem slotWrite_host (i : Nat) (w : Word) : (slotWrite i w s).host = s.host := rfl

/-! ### setWordSize -/

@[simp] theorem setWordSize_x (n : Field8) : (setWordSize n s).x = maskTo n.toNat s.x := rfl
@[simp] theorem setWordSize_y (n : Field8) : (setWordSize n s).y = maskTo n.toNat s.y := rfl
@[simp] theorem setWordSize_z (n : Field8) : (setWordSize n s).z = maskTo n.toNat s.z := rfl
@[simp] theorem setWordSize_t (n : Field8) : (setWordSize n s).t = maskTo n.toNat s.t := rfl
@[simp] theorem setWordSize_mem (n : Field8) : (setWordSize n s).mem = Memory.remask n.toNat s.mem := rfl
@[simp] theorem setWordSize_ws (n : Field8) : (setWordSize n s).ws = n := rfl
@[simp] theorem setWordSize_base (n : Field8) : (setWordSize n s).base = s.base := rfl
@[simp] theorem setWordSize_c (n : Field8) : (setWordSize n s).c = false := rfl
@[simp] theorem setWordSize_v (n : Field8) : (setWordSize n s).v = false := rfl
@[simp] theorem setWordSize_r (n : Field8) : (setWordSize n s).r = s.r := rfl
@[simp] theorem setWordSize_err (n : Field8) : (setWordSize n s).err = s.err := rfl
@[simp] theorem setWordSize_cmdDone (n : Field8) : (setWordSize n s).cmdDone = s.cmdDone := rfl
@[simp] theorem setWordSize_host (n : Field8) : (setWordSize n s).host = s.host := rfl

/-! ### completed -/

@[simp] theorem completed_x : (completed s).x = s.x := rfl
@[simp] theorem completed_y : (completed s).y = s.y := rfl
@[simp] theorem completed_z : (completed s).z = s.z := rfl
@[simp] theorem completed_t : (completed s).t = s.t := rfl
@[simp] theorem completed_mem : (completed s).mem = s.mem := rfl
@[simp] theorem completed_ws : (completed s).ws = s.ws := rfl
@[simp] theorem completed_base : (completed s).base = s.base := rfl
@[simp] theorem completed_c : (completed s).c = s.c := rfl
@[simp] theorem completed_v : (completed s).v = s.v := rfl
@[simp] theorem completed_r : (completed s).r = false := rfl
@[simp] theorem completed_err : (completed s).err = 0 := rfl
@[simp] theorem completed_cmdDone : (completed s).cmdDone = true := rfl
@[simp] theorem completed_host : (completed s).host = s.host := rfl

/-! ### setMark -/

@[simp] theorem setMark_x : (setMark s).x = s.x := rfl
@[simp] theorem setMark_y : (setMark s).y = s.y := rfl
@[simp] theorem setMark_z : (setMark s).z = s.z := rfl
@[simp] theorem setMark_t : (setMark s).t = s.t := rfl
@[simp] theorem setMark_mem : (setMark s).mem = s.mem := rfl
@[simp] theorem setMark_ws : (setMark s).ws = s.ws := rfl
@[simp] theorem setMark_base : (setMark s).base = s.base := rfl
@[simp] theorem setMark_c : (setMark s).c = s.c := rfl
@[simp] theorem setMark_v : (setMark s).v = s.v := rfl
@[simp] theorem setMark_r : (setMark s).r = true := rfl
@[simp] theorem setMark_err : (setMark s).err = s.err := rfl
@[simp] theorem setMark_cmdDone : (setMark s).cmdDone = s.cmdDone := rfl
@[simp] theorem setMark_host : (setMark s).host = s.host := rfl

/-! ### raiseError -/

@[simp] theorem raiseError_x (k : ErrorKind) : (raiseError k s).x = s.x := rfl
@[simp] theorem raiseError_y (k : ErrorKind) : (raiseError k s).y = s.y := rfl
@[simp] theorem raiseError_z (k : ErrorKind) : (raiseError k s).z = s.z := rfl
@[simp] theorem raiseError_t (k : ErrorKind) : (raiseError k s).t = s.t := rfl
@[simp] theorem raiseError_mem (k : ErrorKind) : (raiseError k s).mem = s.mem := rfl
@[simp] theorem raiseError_ws (k : ErrorKind) : (raiseError k s).ws = s.ws := rfl
@[simp] theorem raiseError_base (k : ErrorKind) : (raiseError k s).base = s.base := rfl
@[simp] theorem raiseError_c (k : ErrorKind) : (raiseError k s).c = s.c := rfl
@[simp] theorem raiseError_v (k : ErrorKind) : (raiseError k s).v = s.v := rfl
@[simp] theorem raiseError_r (k : ErrorKind) : (raiseError k s).r = s.r := rfl
@[simp] theorem raiseError_err (k : ErrorKind) : (raiseError k s).err = k.code := rfl
@[simp] theorem raiseError_cmdDone (k : ErrorKind) : (raiseError k s).cmdDone = true := rfl
@[simp] theorem raiseError_host (k : ErrorKind) : (raiseError k s).host = s.host := rfl

/-! ### accept -/

@[simp] theorem accept_x : (accept s).x = s.x := rfl
@[simp] theorem accept_y : (accept s).y = s.y := rfl
@[simp] theorem accept_z : (accept s).z = s.z := rfl
@[simp] theorem accept_t : (accept s).t = s.t := rfl
@[simp] theorem accept_mem : (accept s).mem = s.mem := rfl
@[simp] theorem accept_ws : (accept s).ws = s.ws := rfl
@[simp] theorem accept_base : (accept s).base = s.base := rfl
@[simp] theorem accept_c : (accept s).c = s.c := rfl
@[simp] theorem accept_v : (accept s).v = s.v := rfl
@[simp] theorem accept_r : (accept s).r = s.r := rfl
@[simp] theorem accept_err : (accept s).err = s.err := rfl
@[simp] theorem accept_cmdDone : (accept s).cmdDone = false := rfl
@[simp] theorem accept_host : (accept s).host = s.host := rfl

/-! ### resetEngine -/

@[simp] theorem resetEngine_x : (resetEngine s).x = State.reset.x := rfl
@[simp] theorem resetEngine_y : (resetEngine s).y = State.reset.y := rfl
@[simp] theorem resetEngine_z : (resetEngine s).z = State.reset.z := rfl
@[simp] theorem resetEngine_t : (resetEngine s).t = State.reset.t := rfl
@[simp] theorem resetEngine_mem : (resetEngine s).mem = State.reset.mem := rfl
@[simp] theorem resetEngine_ws : (resetEngine s).ws = State.reset.ws := rfl
@[simp] theorem resetEngine_base : (resetEngine s).base = State.reset.base := rfl
@[simp] theorem resetEngine_c : (resetEngine s).c = State.reset.c := rfl
@[simp] theorem resetEngine_v : (resetEngine s).v = State.reset.v := rfl
@[simp] theorem resetEngine_r : (resetEngine s).r = State.reset.r := rfl
@[simp] theorem resetEngine_err : (resetEngine s).err = State.reset.err := rfl
@[simp] theorem resetEngine_cmdDone : (resetEngine s).cmdDone = State.reset.cmdDone := rfl
@[simp] theorem resetEngine_host : (resetEngine s).host = s.host := rfl

/-! ### withFetchWord -/

@[simp] theorem withFetchWord_x (nbits w : Nat) : (s.withFetchWord nbits w).x = s.x := rfl
@[simp] theorem withFetchWord_y (nbits w : Nat) : (s.withFetchWord nbits w).y = s.y := rfl
@[simp] theorem withFetchWord_z (nbits w : Nat) : (s.withFetchWord nbits w).z = s.z := rfl
@[simp] theorem withFetchWord_t (nbits w : Nat) : (s.withFetchWord nbits w).t = s.t := rfl
@[simp] theorem withFetchWord_mem (nbits w : Nat) : (s.withFetchWord nbits w).mem = s.mem := rfl
@[simp] theorem withFetchWord_ws (nbits w : Nat) : (s.withFetchWord nbits w).ws = s.ws := rfl
@[simp] theorem withFetchWord_base (nbits w : Nat) : (s.withFetchWord nbits w).base = s.base := rfl
@[simp] theorem withFetchWord_c (nbits w : Nat) : (s.withFetchWord nbits w).c = s.c := rfl
@[simp] theorem withFetchWord_v (nbits w : Nat) : (s.withFetchWord nbits w).v = s.v := rfl
@[simp] theorem withFetchWord_r (nbits w : Nat) : (s.withFetchWord nbits w).r = s.r := rfl
@[simp] theorem withFetchWord_err (nbits w : Nat) : (s.withFetchWord nbits w).err = s.err := rfl
@[simp] theorem withFetchWord_cmdDone (nbits w : Nat) : (s.withFetchWord nbits w).cmdDone = s.cmdDone := rfl
@[simp] theorem withFetchWord_host (nbits w : Nat) : (s.withFetchWord nbits w).host = tableWordInput nbits w :: s.host := rfl

/-! ### The state after reset (rule R33) -/

@[simp] theorem reset_x : State.reset.x = 0 := rfl
@[simp] theorem reset_y : State.reset.y = 0 := rfl
@[simp] theorem reset_z : State.reset.z = 0 := rfl
@[simp] theorem reset_t : State.reset.t = 0 := rfl
@[simp] theorem reset_mem : State.reset.mem = [] := rfl
@[simp] theorem reset_ws : State.reset.ws = 64 := rfl
@[simp] theorem reset_base : State.reset.base = 10 := rfl
@[simp] theorem reset_c : State.reset.c = false := rfl
@[simp] theorem reset_v : State.reset.v = false := rfl
@[simp] theorem reset_r : State.reset.r = false := rfl
@[simp] theorem reset_err : State.reset.err = 0 := rfl
@[simp] theorem reset_cmdDone : State.reset.cmdDone = false := rfl
@[simp] theorem reset_host : State.reset.host = [] := rfl

end Sys2Proof.Machine
end

