-- ==== Sys2Proof/Laws/Memory.lean ====
section
/-! SUPPORT. The laws of the slot file: a write is read back, leaves every other slot alone, and keeps the canonical form;
and what the re-masking loop of SETWS does. -/

namespace Sys2Proof.Machine

/-! ### The list operations -/

theorem Memory.wfFrom_cons (lo j : Nat) (w : Word) (rest : Memory) :
    Memory.wfFrom lo ((j, w) :: rest) = true ↔
      lo ≤ j ∧ j < Config.nslots ∧ w ≠ 0#128 ∧ Memory.wfFrom (j + 1) rest = true := by
  simp [Memory.wfFrom, and_assoc]

theorem Memory.wfFrom_mono {m : Memory} : ∀ {lo hi : Nat}, lo ≤ hi → Memory.wfFrom hi m = true →
    Memory.wfFrom lo m = true := by
  cases m with
  | nil => intros; rfl
  | cons e rest =>
    obtain ⟨j, w⟩ := e
    intro lo hi h hw
    rw [Memory.wfFrom_cons] at hw ⊢
    exact ⟨h.trans hw.1, hw.2⟩

/-- In a canonical list that starts at `lo`, every slot below `lo` is unlisted. -/
theorem Memory.read_below {m : Memory} : ∀ {lo i : Nat}, Memory.wfFrom lo m = true → i < lo →
    Memory.read m i = 0#128 := by
  induction m with
  | nil => intros; rfl
  | cons e rest ih =>
    obtain ⟨j, w⟩ := e
    intro lo i hw hi
    rw [Memory.wfFrom_cons] at hw
    have hne : i ≠ j := by omega
    simp only [Memory.read, hne, if_false]
    exact ih hw.2.2.2 (by omega)

/-- A write leaves every other slot alone. -/
theorem Memory.read_write_other (m : Memory) {i k : Nat} (v : Word) (h : k ≠ i) :
    Memory.read (Memory.write m i v) k = Memory.read m k := by
  induction m with
  | nil => by_cases hv : v = 0#128 <;> simp [Memory.write, Memory.read, hv, h]
  | cons e rest ih =>
    obtain ⟨j, w⟩ := e
    by_cases hlt : i < j
    · by_cases hv : v = 0#128 <;> simp [Memory.write, Memory.read, hlt, hv, h]
    · by_cases heq : i = j
      · subst heq
        by_cases hv : v = 0#128 <;> simp [Memory.write, Memory.read, hv, h]
      · simp [Memory.write, Memory.read, hlt, heq, ih]

/-- A read after a write to the same slot gives the value written. -/
theorem Memory.read_write_same {m : Memory} {i : Nat} (v : Word) : ∀ {lo : Nat}, Memory.wfFrom lo m = true →
    Memory.read (Memory.write m i v) i = v := by
  induction m with
  | nil => intros; by_cases hv : v = 0#128 <;> simp [Memory.write, Memory.read, hv]
  | cons e rest ih =>
    obtain ⟨j, w⟩ := e
    intro lo hw
    rw [Memory.wfFrom_cons] at hw
    by_cases hlt : i < j
    · have hne : i ≠ j := by omega
      have hbelow := Memory.read_below hw.2.2.2 (show i < j + 1 by omega)
      by_cases hv : v = 0#128 <;> simp [Memory.write, Memory.read, hlt, hv, hne, hbelow]
    · by_cases heq : i = j
      · subst heq
        by_cases hv : v = 0#128
        · simp [Memory.write, hv, Memory.read_below hw.2.2.2]
        · simp [Memory.write, Memory.read, hv]
      · simp [Memory.write, Memory.read, hlt, heq, ih hw.2.2.2]

/-- A write to a slot of the map keeps the canonical form. -/
theorem Memory.write_wfFrom {m : Memory} {i : Nat} (v : Word) (hi : i < Config.nslots) : ∀ {lo : Nat}, lo ≤ i →
    Memory.wfFrom lo m = true → Memory.wfFrom lo (Memory.write m i v) = true := by
  induction m with
  | nil =>
    intro lo hlo _
    by_cases hv : v = 0#128
    · simp [Memory.write, hv, Memory.wfFrom]
    · rw [Memory.write, if_neg hv, Memory.wfFrom_cons]
      exact ⟨hlo, hi, hv, rfl⟩
  | cons e rest ih =>
    obtain ⟨j, w⟩ := e
    intro lo hlo hw
    have hw' := hw
    rw [Memory.wfFrom_cons] at hw'
    by_cases hlt : i < j
    · by_cases hv : v = 0#128
      · simpa [Memory.write, hlt, hv] using hw
      · rw [Memory.write, if_pos hlt, if_neg hv, Memory.wfFrom_cons, Memory.wfFrom_cons]
        exact ⟨hlo, hi, hv, by omega, hw'.2.1, hw'.2.2.1, hw'.2.2.2⟩
    · by_cases heq : i = j
      · subst heq
        by_cases hv : v = 0#128
        · simp only [Memory.write, lt_irrefl, if_false, if_true, hv]
          exact Memory.wfFrom_mono (by omega) hw'.2.2.2
        · rw [Memory.write, if_neg hlt, if_pos rfl, if_neg hv, Memory.wfFrom_cons]
          exact ⟨hlo, hi, hv, hw'.2.2.2⟩
      · rw [Memory.write, if_neg hlt, if_neg heq, Memory.wfFrom_cons]
        exact ⟨hw'.1, hw'.2.1, hw'.2.2.1, ih (by omega) hw'.2.2.2⟩

/-- Every write of the machine keeps the canonical form. -/
theorem Memory.write_wf {m : Memory} {i : Nat} (v : Word) (hi : i < Config.nslots) (hw : Memory.wf m = true) :
    Memory.wf (Memory.write m i v) = true :=
  Memory.write_wfFrom v hi (Nat.zero_le i) hw

/-- The slot file after reset is canonical. -/
theorem reset_mem_wf : Memory.wf State.reset.mem = true := rfl

/-! ### SlotRead and SlotWrite -/

/-- No register but the slot file itself is read by SlotRead. -/
theorem slotRead_eq {s s' : State} (h : s.mem = s'.mem) (i : Nat) : slotRead i s = slotRead i s' := by
  simp [slotRead, h]

theorem slotRead_slotWrite_same {s : State} {i : Nat} (v : Word) (hw : Memory.wf s.mem = true) :
    slotRead i (slotWrite i v s) = v :=
  Memory.read_write_same v hw

theorem slotRead_slotWrite_other (s : State) {i k : Nat} (v : Word) (h : k ≠ i) :
    slotRead k (slotWrite i v s) = slotRead k s :=
  Memory.read_write_other s.mem v h

/-! ### Re-masking (rule R191) -/

/-- Re-masking keeps the canonical form. -/
theorem Memory.remask_wfFrom (n : Nat) {m : Memory} : ∀ {lo : Nat}, Memory.wfFrom lo m = true →
    Memory.wfFrom lo (Memory.remask n m) = true := by
  induction m with
  | nil => intros; rfl
  | cons e rest ih =>
    obtain ⟨j, w⟩ := e
    intro lo hw
    rw [Memory.wfFrom_cons] at hw
    by_cases h : maskTo n w = 0#128
    · rw [Memory.remask, if_pos h]
      exact Memory.wfFrom_mono (by omega) (ih hw.2.2.2)
    · rw [Memory.remask, if_neg h, Memory.wfFrom_cons]
      exact ⟨hw.1, hw.2.1, h, ih hw.2.2.2⟩

theorem Memory.remask_wf (n : Nat) {m : Memory} (hw : Memory.wf m = true) : Memory.wf (Memory.remask n m) = true :=
  Memory.remask_wfFrom n hw

/-- Masking leaves 0, what an unlisted slot holds. -/
theorem maskTo_zero (n : Nat) : maskTo n 0#128 = 0#128 := by simp [maskTo]

/-- Every slot, listed or not, is masked. -/
theorem Memory.read_remask (n : Nat) {m : Memory} (i : Nat) : ∀ {lo : Nat}, Memory.wfFrom lo m = true →
    Memory.read (Memory.remask n m) i = maskTo n (Memory.read m i) := by
  induction m with
  | nil => intros; exact (maskTo_zero n).symm
  | cons e rest ih =>
    obtain ⟨j, w⟩ := e
    intro lo hw
    rw [Memory.wfFrom_cons] at hw
    have hrest := ih hw.2.2.2
    by_cases h : maskTo n w = 0#128
    · rw [Memory.remask, if_pos h, hrest, Memory.read]
      by_cases hij : i = j
      · rw [if_pos hij, h, Memory.read_below hw.2.2.2 (by omega), maskTo_zero]
      · rw [if_neg hij]
    · rw [Memory.remask, if_neg h, Memory.read, Memory.read, hrest]
      split <;> rfl

/-- After SETWS every slot holds its old value, masked. -/
theorem slotRead_setWordSize (n : Field8) {s : State} (hw : Memory.wf s.mem = true) (i : Nat) :
    slotRead i (setWordSize n s) = maskTo n.toNat (slotRead i s) :=
  Memory.read_remask n.toNat i hw

end Sys2Proof.Machine
end

