-- ==== Sys2Proof/Laws/Width.lean ====
section
/-! SUPPORT. What masking and wrapping do, as arithmetic and bit by bit. -/

namespace Sys2Proof.Machine

/-- MASK(n) as a number, for a word size of at most 128. -/
theorem mask_toNat {n : Nat} (h : n ≤ 128) : (mask n).toNat = 2 ^ n - 1 := by
  have h1 : 2 ^ n ≤ 2 ^ 128 := Nat.pow_le_pow_right (by decide) h
  rw [mask, BitVec.toNat_ofNat, Nat.mod_eq_of_lt]
  have : 0 < 2 ^ n := Nat.two_pow_pos n
  omega

/-- To mask is to reduce modulo 2^n. -/
theorem toNat_maskTo {n : Nat} (h : n ≤ 128) (w : Word) : (maskTo n w).toNat = w.toNat % 2 ^ n := by
  rw [maskTo, BitVec.toNat_and, mask_toNat h, Nat.and_two_pow_sub_one_eq_mod]

/-- A masked value is below 2^n. -/
theorem maskTo_lt {n : Nat} (h : n ≤ 128) (w : Word) : (maskTo n w).toNat < 2 ^ n := by
  rw [toNat_maskTo h]
  exact Nat.mod_lt _ (Nat.two_pow_pos n)

/-- Masking leaves a value that is below 2^n. -/
theorem maskTo_eq_self {n : Nat} (h : n ≤ 128) {w : Word} (hw : w.toNat < 2 ^ n) : maskTo n w = w :=
  BitVec.eq_of_toNat_eq (by rw [toNat_maskTo h, Nat.mod_eq_of_lt hw])

/-- Masking to `m` after masking to `n` is masking to the smaller of the two. -/
theorem maskTo_maskTo {m n : Nat} (hm : m ≤ 128) (hn : n ≤ 128) (w : Word) :
    maskTo m (maskTo n w) = maskTo (min m n) w := by
  apply BitVec.eq_of_toNat_eq
  rw [toNat_maskTo hm, toNat_maskTo hn, toNat_maskTo (by omega)]
  rcases Nat.le_total m n with h | h
  · rw [Nat.min_eq_left h, Nat.mod_mod_of_dvd _ (Nat.pow_dvd_pow 2 h)]
  · rw [Nat.min_eq_right h]
    exact Nat.mod_eq_of_lt
      (lt_of_lt_of_le (Nat.mod_lt _ (Nat.two_pow_pos n)) (Nat.pow_le_pow_right (by decide) h))

/-- The bits of a masked value. -/
theorem getLsbD_maskTo {n : Nat} (h : n ≤ 128) (w : Word) (i : Nat) :
    (maskTo n w).getLsbD i = (decide (i < n) && w.getLsbD i) := by
  rw [BitVec.getLsbD, toNat_maskTo h, Nat.testBit_mod_two_pow, BitVec.getLsbD]

/-- A wrapped integer is below 2^n. -/
theorem toNat_wrap {n : Nat} (h : n ≤ 128) (i : Int) :
    ((wrap n i).toNat : Int) = i % ((2 ^ n : Nat) : Int) := by
  have hpos : (0 : Int) < ((2 ^ n : Nat) : Int) := by exact_mod_cast Nat.two_pow_pos n
  have h0 := Int.emod_nonneg i (ne_of_gt hpos)
  have h1 := Int.emod_lt_of_pos i hpos
  have h2 : 2 ^ n ≤ 2 ^ 128 := Nat.pow_le_pow_right (by decide) h
  rw [wrap, BitVec.toNat_ofNat, Nat.mod_eq_of_lt (by omega), Int.toNat_of_nonneg h0]

theorem wrap_lt {n : Nat} (h : n ≤ 128) (i : Int) : (wrap n i).toNat < 2 ^ n := by
  have hpos : (0 : Int) < ((2 ^ n : Nat) : Int) := by exact_mod_cast Nat.two_pow_pos n
  have h1 := Int.emod_lt_of_pos i hpos
  rw [← toNat_wrap h] at h1
  exact_mod_cast h1

/-- The result of a narrowing modulo 2^n is below 2^n. -/
theorem toNat_ofNat_mod {n : Nat} (h : n ≤ 128) (k : Nat) : (BitVec.ofNat 128 (k % 2 ^ n)).toNat = k % 2 ^ n := by
  rw [BitVec.toNat_ofNat]
  exact Nat.mod_eq_of_lt
    (lt_of_lt_of_le (Nat.mod_lt _ (Nat.two_pow_pos n)) (Nat.pow_le_pow_right (by decide) h))

end Sys2Proof.Machine
end

