-- ==== Sys2Proof/Laws/Ops.lean ====
section
/-! SUPPORT. For each shared operation, one lemma that says everything it can do. -/

namespace Sys2Proof.Machine

/-- What `commit` can answer: completion of everything computed, or the error and nothing else. -/
theorem commit_next {s t : State} {o : Except ErrorKind State} (h : commit s o = .next t) :
    (∃ s', o = .ok s' ∧ t = completed s') ∨ (∃ k, o = .error k ∧ t = raiseError k s) := by
  cases o with
  | ok s' => exact .inl ⟨s', rfl, (Host.Outcome.next.inj h).symm⟩
  | error k => exact .inr ⟨k, rfl, (Host.Outcome.next.inj h).symm⟩

/-- `commit` always answers a next state. -/
theorem commit_answers (s : State) (o : Except ErrorKind State) : ∃ t, commit s o = .next t := by
  cases o <;> exact ⟨_, rfl⟩

@[simp] theorem commit_ok (s s' : State) : commit s (.ok s') = .next (completed s') := rfl

@[simp] theorem commit_error (s : State) (k : ErrorKind) : commit s (.error k) = .next (raiseError k s) := rfl

/-- An error code is never 0 and at most 5 (rule R221). -/
theorem code_range (k : ErrorKind) : k.code ≠ 0 ∧ k.code.toNat ≤ 5 := by cases k <;> decide

/-- What the push primitive can do (rule R100): lift, or replace X under the mark; the mark is cleared. -/
theorem pushval_cases (w : Word) (s : State) :
    (s.r = false ∧ pushval w s = { lift s with x := w, r := false }) ∨
      (s.r = true ∧ pushval w s = { s with x := w, r := false }) := by
  cases h : s.r <;> simp [pushval, h, setX, lift]

/-- What the slot operand can be (rule R200). -/
theorem slotOperand_cases (arg : Field8) :
    (arg.toNat < 16 ∧ slotOperand arg = .ok arg.toNat) ∨
      (16 ≤ arg.toNat ∧ slotOperand arg = .error .invalidMemoryIndex) := by
  rcases Nat.lt_or_ge arg.toNat 16 with h | h
  · exact .inl ⟨h, if_pos h⟩
  · exact .inr ⟨h, if_neg (Nat.not_lt.mpr h)⟩

/-- What the word-size operand can be (rule R191). -/
theorem wordSizeOperand_cases (arg : Field8) :
    ((1 ≤ arg.toNat ∧ arg.toNat ≤ 128) ∧ wordSizeOperand arg = .ok arg) ∨
      (¬(1 ≤ arg.toNat ∧ arg.toNat ≤ 128) ∧ wordSizeOperand arg = .error .invalidWordSize) := by
  by_cases h : 1 ≤ arg.toNat ∧ arg.toNat ≤ 128
  · exact .inl ⟨h, if_pos h⟩
  · exact .inr ⟨h, if_neg h⟩

/-- What the radix operand can be (rule R190). -/
theorem radixOperand_cases (arg : Field8) :
    (arg ∈ Config.bases ∧ radixOperand arg = .ok arg) ∨
      (arg ∉ Config.bases ∧ radixOperand arg = .error .invalidBase) := by
  by_cases h : arg ∈ Config.bases
  · exact .inl ⟨h, if_pos h⟩
  · exact .inr ⟨h, if_neg h⟩

/-- What DIV computes (rule R124). -/
theorem divResult_cases (a b : Word) :
    (b ≠ 0 ∧ divResult a b = .ok { r := BitVec.ofNat 128 (a.toNat / b.toNat), c := false, v := false }) ∨
      (b = 0 ∧ divResult a b = .error .divideByZero) := by
  by_cases h : b = 0
  · exact .inr ⟨h, if_pos h⟩
  · exact .inl ⟨h, if_neg h⟩

/-- A shift or rotate gives a value below 2^n. -/
theorem shl_lt {n : Nat} (h : n ≤ 128) (x : Word) (k : Nat) : (shl n x k).toNat < 2 ^ n := by
  unfold shl
  split
  · exact maskTo_lt h _
  · exact Nat.two_pow_pos n

theorem shr_lt {n : Nat} {x : Word} (hx : x.toNat < 2 ^ n) (k : Nat) : (shr n x k).toNat < 2 ^ n := by
  unfold shr
  split
  · rw [BitVec.toNat_ushiftRight, Nat.shiftRight_eq_div_pow]
    exact lt_of_le_of_lt (Nat.div_le_self _ _) hx
  · exact Nat.two_pow_pos n

theorem asr_lt {n : Nat} (h : n ≤ 128) (x : Word) (k : Nat) : (asr n x k).toNat < 2 ^ n := by
  have hpos := Nat.two_pow_pos n
  unfold asr
  split
  · exact wrap_lt h _
  · split
    · rw [mask_toNat h]; omega
    · exact hpos

theorem rol_lt {n : Nat} (h : n ≤ 128) (x : Word) (k : Nat) : (rol n x k).toNat < 2 ^ n := maskTo_lt h _

theorem ror_lt {n : Nat} (h : n ≤ 128) (x : Word) (k : Nat) : (ror n x k).toNat < 2 ^ n := maskTo_lt h _

/-! ### The ports -/

/-- With nothing driven RST is released, so CMD_READY is high. -/
theorem cmdReady_of_nil {s : State} (h : s.host = []) : s.cmdReady = true := by
  simp [State.cmdReady, State.pins, PortInput.idle, h]

/-- CMD_READY is low exactly while the sample driven asserts RST. -/
theorem cmdReady_of_cons {s : State} {p : PortInput} {rest : List PortInput} (h : s.host = p :: rest) :
    s.cmdReady = !p.rst := by
  simp [State.cmdReady, State.pins, h]

/-! ### The step -/

/-- Everything one sample of the input ports can do. -/
theorem respond_cases (p : PortInput) (s : State) :
    (p.rst = true ∧ respond p s = .next (resetEngine s)) ∨
      (p.rst = false ∧ p.cmdValid = false ∧ respond p s = .next s) ∨
      (p.rst = false ∧ p.cmdValid = true ∧
        ((∃ i, decode p.cmd p.data = .ok i ∧ respond p s = exec i (accept s)) ∨
          (∃ e, decode p.cmd p.data = .error e ∧
            respond p s = .next (raiseError .illegalCommand (accept s))))) := by
  cases hr : p.rst
  · cases hv : p.cmdValid
    · exact .inr (.inl ⟨rfl, rfl, by simp [respond, hr, hv]⟩)
    · refine .inr (.inr ⟨rfl, rfl, ?_⟩)
      cases hd : decode p.cmd p.data with
      | ok i => exact .inl ⟨i, rfl, by simp [respond, hr, hv, executeCommand, hd]⟩
      | error e => exact .inr ⟨e, rfl, by simp [respond, hr, hv, executeCommand, hd]⟩
  · exact .inl ⟨rfl, by simp [respond, hr]⟩

/-- Everything a step can do: wait, or respond to the oldest sample. -/
theorem step_cases (s : State) :
    (s.host = [] ∧ step s = .next s) ∨
      (∃ p rest, s.host = p :: rest ∧ step s = respond p { s with host := rest }) := by
  unfold step
  split
  · exact .inl ⟨by assumption, rfl⟩
  · exact .inr ⟨_, _, by assumption, rfl⟩

end Sys2Proof.Machine
end

