-- ==== Sys2Proof/Laws/Exec.lean ====
section
/-! SUPPORT. For each command that checks an operand, what it does when the check passes and when it fails: one equation
each, so that no proof unfolds the check again. The other commands have no case to split. -/

namespace Sys2Proof.Machine

variable (s : State)

theorem exec_div_ok (h : s.y ≠ 0) :
    exec .div s =
      .next (completed (applyArith s ⟨BitVec.ofNat 128 (s.x.toNat / s.y.toNat), false, false⟩)) := by
  simp only [exec, execDiv, divResult, if_neg h]; rfl

theorem exec_div_zero (h : s.y = 0) : exec .div s = .next (raiseError .divideByZero s) := by
  simp only [exec, execDiv, divResult, if_pos h]; rfl

theorem exec_setbase_ok {arg : Field8} (h : arg ∈ Config.bases) :
    exec (.setbase arg) s = .next (completed (setBase arg s)) := by
  simp only [exec, execSetbase, radixOperand, if_pos h]; rfl

theorem exec_setbase_error {arg : Field8} (h : arg ∉ Config.bases) :
    exec (.setbase arg) s = .next (raiseError .invalidBase s) := by
  simp only [exec, execSetbase, radixOperand, if_neg h]; rfl

theorem exec_setws_ok {arg : Field8} (h : 1 ≤ arg.toNat ∧ arg.toNat ≤ 128) :
    exec (.setws arg) s = .next (completed (setWordSize arg s)) := by
  have h' : wordSizeOperand arg = .ok arg := if_pos h
  simp only [exec, execSetws, h']; rfl

theorem exec_setws_error {arg : Field8} (h : ¬(1 ≤ arg.toNat ∧ arg.toNat ≤ 128)) :
    exec (.setws arg) s = .next (raiseError .invalidWordSize s) := by
  have h' : wordSizeOperand arg = .error .invalidWordSize := if_neg h
  simp only [exec, execSetws, h']; rfl

theorem exec_sto_ok {arg : Field8} (h : arg.toNat < 16) :
    exec (.sto arg) s = .next (completed (slotWrite arg.toNat (maskTo s.ws.toNat s.x) s)) := by
  have h' : slotOperand arg = .ok arg.toNat := if_pos h
  simp only [exec, execSto, h']; rfl

theorem exec_sto_error {arg : Field8} (h : 15 < arg.toNat) :
    exec (.sto arg) s = .next (raiseError .invalidMemoryIndex s) := by
  have h' : slotOperand arg = .error .invalidMemoryIndex := if_neg (Nat.not_lt.mpr h)
  simp only [exec, execSto, h']; rfl

theorem exec_stov_ok {arg : Field8} (data : Word) (h : arg.toNat < 16) :
    exec (.stov arg data) s = .next (completed (slotWrite arg.toNat (maskTo s.ws.toNat data) s)) := by
  have h' : slotOperand arg = .ok arg.toNat := if_pos h
  simp only [exec, execStov, h']; rfl

theorem exec_stov_error {arg : Field8} (data : Word) (h : 15 < arg.toNat) :
    exec (.stov arg data) s = .next (raiseError .invalidMemoryIndex s) := by
  have h' : slotOperand arg = .error .invalidMemoryIndex := if_neg (Nat.not_lt.mpr h)
  simp only [exec, execStov, h']; rfl

theorem exec_rcl_ok {arg : Field8} (h : arg.toNat < 16) :
    exec (.rcl arg) s = .next (completed (pushval (slotRead arg.toNat s) s)) := by
  have h' : slotOperand arg = .ok arg.toNat := if_pos h
  simp only [exec, execRcl, h']; rfl

theorem exec_rcl_error {arg : Field8} (h : 15 < arg.toNat) :
    exec (.rcl arg) s = .next (raiseError .invalidMemoryIndex s) := by
  have h' : slotOperand arg = .error .invalidMemoryIndex := if_neg (Nat.not_lt.mpr h)
  simp only [exec, execRcl, h']; rfl

end Sys2Proof.Machine
end

