-- ==== Sys2Proof/Laws/PerInstr.lean ====
section
/-! SUPPORT. The statements made per instruction. The family `Encoding`: the command an instruction is encoded as is a
well-formed command word (rules R75, R77), whatever its operands. -/

/-- The encoded word passes the reserved-field check. -/
def Sys2Proof.Laws.Encoding.Statement (i : Sys2Proof.Instr) : Prop :=
  Sys2Proof.wordWellFormed (Sys2Proof.encode i).cmd = true

theorem Sys2Proof.Laws.Encoding.push (data : Word) : Sys2Proof.Laws.Encoding.Statement (.push data) :=
  (by decide : Sys2Proof.wordWellFormed (Sys2Proof.packCmd 0x01 0) = true)

theorem Sys2Proof.Laws.Encoding.enter : Sys2Proof.Laws.Encoding.Statement .enter := rfl

theorem Sys2Proof.Laws.Encoding.drop : Sys2Proof.Laws.Encoding.Statement .drop := rfl

theorem Sys2Proof.Laws.Encoding.swap : Sys2Proof.Laws.Encoding.Statement .swap := rfl

theorem Sys2Proof.Laws.Encoding.roll : Sys2Proof.Laws.Encoding.Statement .roll := rfl

theorem Sys2Proof.Laws.Encoding.add : Sys2Proof.Laws.Encoding.Statement .add := rfl

theorem Sys2Proof.Laws.Encoding.sub : Sys2Proof.Laws.Encoding.Statement .sub := rfl

theorem Sys2Proof.Laws.Encoding.mul : Sys2Proof.Laws.Encoding.Statement .mul := rfl

theorem Sys2Proof.Laws.Encoding.div : Sys2Proof.Laws.Encoding.Statement .div := rfl

theorem Sys2Proof.Laws.Encoding.and : Sys2Proof.Laws.Encoding.Statement .and := rfl

theorem Sys2Proof.Laws.Encoding.or : Sys2Proof.Laws.Encoding.Statement .or := rfl

theorem Sys2Proof.Laws.Encoding.xor : Sys2Proof.Laws.Encoding.Statement .xor := rfl

theorem Sys2Proof.Laws.Encoding.not : Sys2Proof.Laws.Encoding.Statement .not := rfl

theorem Sys2Proof.Laws.Encoding.sl : Sys2Proof.Laws.Encoding.Statement .sl := rfl

theorem Sys2Proof.Laws.Encoding.sr : Sys2Proof.Laws.Encoding.Statement .sr := rfl

theorem Sys2Proof.Laws.Encoding.asr : Sys2Proof.Laws.Encoding.Statement .asr := rfl

theorem Sys2Proof.Laws.Encoding.rl : Sys2Proof.Laws.Encoding.Statement .rl := rfl

theorem Sys2Proof.Laws.Encoding.rr : Sys2Proof.Laws.Encoding.Statement .rr := rfl

theorem Sys2Proof.Laws.Encoding.sly : Sys2Proof.Laws.Encoding.Statement .sly := rfl

theorem Sys2Proof.Laws.Encoding.sry : Sys2Proof.Laws.Encoding.Statement .sry := rfl

theorem Sys2Proof.Laws.Encoding.asry : Sys2Proof.Laws.Encoding.Statement .asry := rfl

theorem Sys2Proof.Laws.Encoding.rly : Sys2Proof.Laws.Encoding.Statement .rly := rfl

theorem Sys2Proof.Laws.Encoding.rry : Sys2Proof.Laws.Encoding.Statement .rry := rfl

theorem Sys2Proof.Laws.Encoding.setbase (arg : Field8) : Sys2Proof.Laws.Encoding.Statement (.setbase arg) := Sys2Proof.wordWellFormed_packArg _ (by decide) arg

theorem Sys2Proof.Laws.Encoding.setws (arg : Field8) : Sys2Proof.Laws.Encoding.Statement (.setws arg) := Sys2Proof.wordWellFormed_packArg _ (by decide) arg

theorem Sys2Proof.Laws.Encoding.sto (arg : Field8) : Sys2Proof.Laws.Encoding.Statement (.sto arg) := Sys2Proof.wordWellFormed_packArg _ (by decide) arg

theorem Sys2Proof.Laws.Encoding.stov (arg : Field8) (data : Word) : Sys2Proof.Laws.Encoding.Statement (.stov arg data) := Sys2Proof.wordWellFormed_packArg _ (by decide) arg

theorem Sys2Proof.Laws.Encoding.rcl (arg : Field8) : Sys2Proof.Laws.Encoding.Statement (.rcl arg) := Sys2Proof.wordWellFormed_packArg _ (by decide) arg
end

