-- ==== Sys2Proof/Tests/Slice0.lean ====
section
/-! SUPPORT. The model's own tests. Every expected result is taken from 95_test_vectors.md or from a rule's own example, as
the comments say; each test is one command or one step on a small state. After them, for every statement with
hypotheses, a witness that meets them, at the ends of each range. -/

namespace Sys2Proof.Tests

open Sys2Proof.Machine

/-- The reset state with a word size and a stack. -/
def st (ws : Field8) (x y z t : Word) : State := { State.reset with ws := ws, x := x, y := y, z := z, t := t }

/-- With C, V and R set. -/
def marked (s : State) : State := { s with c := true, v := true, r := true }

/-- With the flags set, to show that a command keeps them. -/
def flagged (s : State) : State := { s with c := true, v := true }

/-- With one command presented. -/
def given (s : State) (cmd : CmdWord) (data : Word) : State := { s with host := [PortInput.present cmd data] }

/-- The outcome is a next state with this stack, these flags, this mark and this result code. -/
def shows (o : Host.Outcome State Fault Refusal) (x y z t : Word) (c v r : Bool) (err : BitVec 4) : Bool :=
  match o with
  | .next s =>
    s.x == x && s.y == y && s.z == z && s.t == t && s.c == c && s.v == v && s.r == r && s.err == err && s.cmdDone
  | .fault _ => false
  | .refused _ => false

/-- The outcome is exactly this next state. -/
def goesTo (o : Host.Outcome State Fault Refusal) (t : State) : Bool :=
  match o with
  | .next s => decide (s = t)
  | .fault _ => false
  | .refused _ => false

/-- Some field of the next state. -/
def field {α : Type} (f : State → α) (o : Host.Outcome State Fault Refusal) : Option α :=
  match o with
  | .next s => some (f s)
  | .fault _ => none
  | .refused _ => none

/-! ### Decoding: the words of rule R71's bit patterns and rule R74's opcodes, written out bit by bit -/

theorem test_decode_stack :
    decode 0b00000001_00000000_0000000000000000#32 300 = .ok (.push 300) ∧
    decode 0b00000010_00000000_0000000000000000#32 0 = .ok .enter ∧
    decode 0b00000011_00000000_0000000000000000#32 0 = .ok .drop ∧
    decode 0b00000100_00000000_0000000000000000#32 0 = .ok .swap ∧
    decode 0b00000101_00000000_0000000000000000#32 0 = .ok .roll := by decide

theorem test_decode_arithmetic :
    decode 0b00010000_00000000_0000000000000000#32 0 = .ok .add ∧
    decode 0b00010001_00000000_0000000000000000#32 0 = .ok .sub ∧
    decode 0b00010010_00000000_0000000000000000#32 0 = .ok .mul ∧
    decode 0b00010011_00000000_0000000000000000#32 0 = .ok .div := by decide

theorem test_decode_bitwise :
    decode 0b00100000_00000000_0000000000000000#32 0 = .ok .and ∧
    decode 0b00100001_00000000_0000000000000000#32 0 = .ok .or ∧
    decode 0b00100010_00000000_0000000000000000#32 0 = .ok .xor ∧
    decode 0b00100011_00000000_0000000000000000#32 0 = .ok .not := by decide

theorem test_decode_unary :
    decode 0b00110000_00000000_0000000000000000#32 0 = .ok .sl ∧
    decode 0b00110001_00000000_0000000000000000#32 0 = .ok .sr ∧
    decode 0b00110010_00000000_0000000000000000#32 0 = .ok .asr ∧
    decode 0b00110011_00000000_0000000000000000#32 0 = .ok .rl ∧
    decode 0b00110100_00000000_0000000000000000#32 0 = .ok .rr := by decide

theorem test_decode_binary :
    decode 0b00111000_00000000_0000000000000000#32 0 = .ok .sly ∧
    decode 0b00111001_00000000_0000000000000000#32 0 = .ok .sry ∧
    decode 0b00111010_00000000_0000000000000000#32 0 = .ok .asry ∧
    decode 0b00111011_00000000_0000000000000000#32 0 = .ok .rly ∧
    decode 0b00111100_00000000_0000000000000000#32 0 = .ok .rry := by decide

theorem test_decode_argument :
    decode 0b01000000_00010000_0000000000000000#32 0 = .ok (.setbase 16) ∧
    decode 0b01000001_10000000_0000000000000000#32 0 = .ok (.setws 128) ∧
    decode 0b01010000_00000011_0000000000000000#32 0 = .ok (.sto 3) ∧
    decode 0b01010001_00001111_0000000000000000#32 0x1FF = .ok (.stov 15 0x1FF) ∧
    decode 0b01010010_11111111_0000000000000000#32 0 = .ok (.rcl 255) := by decide

/-- The words of 95_test_vectors.md section 2.7. -/
theorem test_decode_illegal :
    decode 0x00000000 0 = .error .undefinedOp ∧ decode 0xFF000000 0 = .error .undefinedOp ∧
    decode 0x06000000 0 = .error .undefinedOp ∧ decode 0x10000001 0 = .error .reservedRsv ∧
    decode 0x10010000 0 = .error .reservedArg ∧ decode 0x01010000 0 = .error .reservedArg ∧
    decode 0x50030001 0 = .error .reservedRsv ∧ decode 0x41000001 0 = .error .reservedRsv := by decide

/-- No two rows share an opcode, so no word matches two rows. -/
theorem test_op_table_rows_do_not_overlap : opTable.Pairwise (fun a b => a.op ≠ b.op) := by decide

/-- The match and mask columns of opcode_table.json. -/
theorem test_op_table_masks :
    opTable.map (fun row => (row.pattern, row.mask)) =
      [(0x01000000, 0xFFFFFFFF), (0x02000000, 0xFFFFFFFF), (0x03000000, 0xFFFFFFFF), (0x04000000, 0xFFFFFFFF),
       (0x05000000, 0xFFFFFFFF), (0x10000000, 0xFFFFFFFF), (0x11000000, 0xFFFFFFFF), (0x12000000, 0xFFFFFFFF)] ++
      [(0x13000000, 0xFFFFFFFF), (0x20000000, 0xFFFFFFFF), (0x21000000, 0xFFFFFFFF), (0x22000000, 0xFFFFFFFF),
       (0x23000000, 0xFFFFFFFF), (0x30000000, 0xFFFFFFFF), (0x31000000, 0xFFFFFFFF), (0x32000000, 0xFFFFFFFF)] ++
      [(0x33000000, 0xFFFFFFFF), (0x34000000, 0xFFFFFFFF), (0x38000000, 0xFFFFFFFF), (0x39000000, 0xFFFFFFFF),
       (0x3A000000, 0xFFFFFFFF), (0x3B000000, 0xFFFFFFFF), (0x3C000000, 0xFFFFFFFF)] ++
      [(0x40000000, 0xFF00FFFF), (0x41000000, 0xFF00FFFF), (0x50000000, 0xFF00FFFF), (0x51000000, 0xFF00FFFF),
       (0x52000000, 0xFF00FFFF)] := by decide

/-! ### Well-formedness: an ill-formed term for each check -/

theorem test_wf_accepts : wordWellFormed 0x10000000 = true ∧ wordWellFormed 0x50FF0000 = true := by decide

theorem test_wf_refuses_undefined_op : wordWellFormed 0x06000000 = false := by decide

theorem test_wf_refuses_rsv : wordWellFormed 0x50030001 = false := by decide

theorem test_wf_refuses_arg_in_format_n : wordWellFormed 0x10010000 = false := by decide

theorem test_wf_refuses_arg_in_format_d : wordWellFormed 0x01010000 = false := by decide

theorem test_arg_legal_refuses_radix : (Instr.setbase 3).argLegal = false ∧ (Instr.setbase 16).argLegal = true := by decide

theorem test_arg_legal_refuses_size : (Instr.setws 0).argLegal = false ∧ (Instr.setws 129).argLegal = false ∧ (Instr.setws 128).argLegal = true := by decide

theorem test_arg_legal_refuses_index :
    (Instr.sto 16).argLegal = false ∧ (Instr.stov 16 0).argLegal = false ∧ (Instr.rcl 255).argLegal = false ∧
    (Instr.sto 15).argLegal = true ∧ (Instr.stov 15 0).argLegal = true ∧ (Instr.rcl 0).argLegal = true := by decide

/-! ### Stack commands (95_test_vectors.md section 2.1) -/

theorem test_push_masks_and_lifts :
    shows (exec (.push 0x105) (flagged (st 8 1 2 3 4))) 5 1 2 3 true true false 0 = true := by decide

theorem test_push_replaces_under_mark :
    shows (exec (.push 0x105) (marked (st 8 1 2 3 4))) 5 2 3 4 true true false 0 = true := by decide

theorem test_enter_lifts_and_marks :
    shows (exec .enter (st 8 1 2 3 4)) 1 1 2 3 false false true 0 = true := by decide

theorem test_enter_lifts_under_mark :
    shows (exec .enter (marked (st 8 1 2 3 4))) 1 1 2 3 true true true 0 = true := by decide

theorem test_drop :
    shows (exec .drop (marked (st 8 1 2 3 4))) 2 3 4 4 true true false 0 = true := by decide

theorem test_swap :
    shows (exec .swap (marked (st 8 1 2 3 4))) 2 1 3 4 true true false 0 = true := by decide

theorem test_roll :
    shows (exec .roll (marked (st 8 1 2 3 4))) 2 3 4 1 true true false 0 = true := by decide

/-! ### Arithmetic (95_test_vectors.md section 2.2) -/

theorem test_add_signed_overflow :
    shows (exec .add (marked (st 8 0x7F 1 0x33 0x44))) 0x80 0x33 0x44 0x44 false true false 0 = true := by decide

theorem test_add_exact_at_128 :
    shows (exec .add (marked (st 128 0x80000000000000000000000000000000 0x80000000000000000000000000000000 0x33 0x44))) 0 0x33 0x44 0x44 true true false 0 = true := by decide

theorem test_sub_order_and_borrow :
    shows (exec .sub (marked (st 8 0x7F 0xFF 0x33 0x44))) 0x80 0x33 0x44 0x44 true true false 0 = true := by decide

theorem test_sub_at_one_bit :
    shows (exec .sub (marked (st 1 0 1 0 1))) 1 0 1 1 true true false 0 = true := by decide

theorem test_mul_min_times_minus_one :
    shows (exec .mul (marked (st 8 0x80 0xFF 0x33 0x44))) 0x80 0x33 0x44 0x44 true true false 0 = true := by decide

theorem test_mul_exact_at_128 :
    shows (exec .mul (marked (st 128 0xFFFFFFFFFFFFFFFFFFFFFFFFFFFFFFFF 0xFFFFFFFFFFFFFFFFFFFFFFFFFFFFFFFF 0x33 0x44))) 1 0x33 0x44 0x44 true false false 0 = true := by decide

theorem test_div_is_unsigned :
    shows (exec .div (marked (st 8 0x80 0xFF 0x33 0x44))) 0 0x33 0x44 0x44 false false false 0 = true := by decide

/-- E4 and section 2.2: ERR = 1, the rest unchanged. -/
theorem test_div_by_zero :
    goesTo (exec .div (marked (st 8 5 0 0x33 0x44)))
      { marked (st 8 5 0 0x33 0x44) with err := 1, cmdDone := true } = true := by decide

/-! ### Bitwise logic (95_test_vectors.md section 2.3): the flags are kept -/

theorem test_and :
    shows (exec .and (marked (st 8 0xFF 0xAA 0x33 0x44))) 0xAA 0x33 0x44 0x44 true true false 0 = true := by decide

theorem test_or :
    shows (exec .or (marked (st 8 0xF0 0x0F 0x33 0x44))) 0xFF 0x33 0x44 0x44 true true false 0 = true := by decide

theorem test_xor :
    shows (exec .xor (marked (st 8 0xFF 0xAA 0x33 0x44))) 0x55 0x33 0x44 0x44 true true false 0 = true := by decide

theorem test_not :
    shows (exec .not (marked (st 8 0x0F 0x22 0x33 0x44))) 0xF0 0x22 0x33 0x44 true true false 0 = true := by decide

theorem test_not_at_128 :
    shows (exec .not (st 128 0 0 0 0)) 0xFFFFFFFFFFFFFFFFFFFFFFFFFFFFFFFF 0 0 0 false false false 0 = true := by decide

/-! ### Shifts and rotates (95_test_vectors.md section 2.4): the flags are kept -/

theorem test_sl :
    shows (exec .sl (marked (st 8 0x81 0x22 0x33 0x44))) 0x02 0x22 0x33 0x44 true true false 0 = true := by decide

theorem test_sr :
    shows (exec .sr (marked (st 8 0x81 0x22 0x33 0x44))) 0x40 0x22 0x33 0x44 true true false 0 = true := by decide

theorem test_asr :
    shows (exec .asr (marked (st 8 0x81 0x22 0x33 0x44))) 0xC0 0x22 0x33 0x44 true true false 0 = true := by decide

theorem test_asr_positive :
    shows (exec .asr (marked (st 8 0x7F 0x22 0x33 0x44))) 0x3F 0x22 0x33 0x44 true true false 0 = true := by decide

theorem test_rl :
    shows (exec .rl (marked (st 8 0x81 0x22 0x33 0x44))) 0x03 0x22 0x33 0x44 true true false 0 = true := by decide

theorem test_rl_at_128 :
    shows (exec .rl (marked (st 128 0x80000000000000000000000000000000 0x22 0x33 0x44))) 1 0x22 0x33 0x44 true true false 0 = true := by decide

theorem test_rr :
    shows (exec .rr (marked (st 8 0x81 0x22 0x33 0x44))) 0xC0 0x22 0x33 0x44 true true false 0 = true := by decide

theorem test_rr_at_one_bit :
    shows (exec .rr (st 1 1 0 0 0)) 1 0 0 0 false false false 0 = true := by decide

theorem test_sly :
    shows (exec .sly (marked (st 8 1 3 0x33 0x44))) 8 0x33 0x44 0x44 true true false 0 = true := by decide

theorem test_sly_saturates :
    shows (exec .sly (marked (st 8 0xFF 200 0x33 0x44))) 0 0x33 0x44 0x44 true true false 0 = true := by decide

theorem test_sry :
    shows (exec .sry (marked (st 8 0x80 7 0x33 0x44))) 1 0x33 0x44 0x44 true true false 0 = true := by decide

theorem test_sry_saturates :
    shows (exec .sry (marked (st 8 0x80 8 0x33 0x44))) 0 0x33 0x44 0x44 true true false 0 = true := by decide

theorem test_asry :
    shows (exec .asry (marked (st 8 0x80 3 0x33 0x44))) 0xF0 0x33 0x44 0x44 true true false 0 = true := by decide

theorem test_asry_saturates :
    shows (exec .asry (marked (st 128 0x80000000000000000000000000000000 1000 0x33 0x44))) 0xFFFFFFFFFFFFFFFFFFFFFFFFFFFFFFFF 0x33 0x44 0x44 true true false 0 = true := by decide

theorem test_rly :
    shows (exec .rly (marked (st 8 0x81 4 0x33 0x44))) 0x18 0x33 0x44 0x44 true true false 0 = true := by decide

theorem test_rly_modulo :
    shows (exec .rly (marked (st 8 0x81 9 0x33 0x44))) 3 0x33 0x44 0x44 true true false 0 = true := by decide

theorem test_rry :
    shows (exec .rry (marked (st 8 0x81 1 0x33 0x44))) 0xC0 0x33 0x44 0x44 true true false 0 = true := by decide

theorem test_rry_by_zero :
    shows (exec .rry (marked (st 8 0x81 0 0x33 0x44))) 0x81 0x33 0x44 0x44 true true false 0 = true := by decide

/-! ### Configuration (95_test_vectors.md section 2.5) -/

/-- The start state of section 2.5. -/
def wide : State := { flagged (st 16 0x1234 0xABCD 0x00FF 0x8000) with mem := [(0, 0xFF00)] }

theorem test_setbase :
    goesTo (exec (.setbase 16) wide) { wide with base := 16, r := false, err := 0, cmdDone := true } = true := by decide

theorem test_setbase_three :
    goesTo (exec (.setbase 3) (marked wide)) { marked wide with err := 4, cmdDone := true } = true := by decide

theorem test_setws_narrows :
    goesTo (exec (.setws 8) wide)
      { wide with x := 0x34, y := 0xCD, z := 0xFF, t := 0, mem := [], ws := 8, c := false, v := false, cmdDone := true } =
      true := by decide

theorem test_setws_129 :
    goesTo (exec (.setws 129) (marked wide)) { marked wide with err := 3, cmdDone := true } = true := by decide

/-! ### Memory commands (95_test_vectors.md section 2.6) -/

/-- The start states of section 2.6. -/
def slots : State := { st 8 0x2A 0x01 0x02 0x03 with mem := [(3, 0x2A)] }

theorem test_sto :
    goesTo (exec (.sto 15) slots) { slots with mem := [(3, 0x2A), (15, 0x2A)], cmdDone := true } = true := by decide

theorem test_sto_16 :
    goesTo (exec (.sto 16) (marked slots)) { marked slots with err := 2, cmdDone := true } = true := by decide

theorem test_stov_masks :
    goesTo (exec (.stov 15 0x1FF) slots) { slots with mem := [(3, 0x2A), (15, 0xFF)], cmdDone := true } = true := by decide

/-- DATA masked to 0 leaves slot 3 unlisted, which reads 0 (rules R202, R33). -/
theorem test_stov_zero_keeps_canonical_form :
    goesTo (exec (.stov 3 0x100) slots) { slots with mem := [], cmdDone := true } = true := by decide

theorem test_rcl_lifts :
    shows (exec (.rcl 3) { slots with x := 1, y := 2, z := 3, t := 4 }) 0x2A 1 2 3 false false false 0 = true := by decide

theorem test_rcl_replaces_under_mark :
    shows (exec (.rcl 3) { slots with x := 1, y := 2, z := 3, t := 4, r := true }) 0x2A 2 3 4 false false false 0 = true := by decide

/-! ### One step (30_encoding.md, 70_reset_and_hazards.md) -/

/-- Section 2.7: DIV with RSV not 0 and Y = 0 is IllegalCommand, and R stays 1. -/
theorem test_step_illegal_word_before_own_check :
    goesTo (step (given (marked (st 8 5 0 3 4)) 0x13000001 0)) { marked (st 8 5 0 3 4) with err := 5, cmdDone := true } =
      true := by decide

theorem test_step_success_clears_err :
    field State.err (step (given { st 8 1 2 3 4 with err := 5 } 0x04000000 0)) = some 0 := by decide

/-- R251. -/
theorem test_step_reset_abandons_command :
    goesTo (step { marked wide with host := [⟨0x10000000, 0, true, true⟩] }) State.reset = true := by decide

theorem test_step_waits :
    goesTo (step wide) wide = true ∧ goesTo (step { wide with host := [PortInput.idle] }) wide = true := by decide

/-- E1's first command, as the first after reset. -/
theorem test_step_runs_table_word :
    decodeTableWord 32 0x41080000 = some (.setws 8) ∧
    field State.ws (step (State.reset.withFetchWord 32 0x41080000)) = some 8 := by decide

/-- R28: BASE 10, WS 8, ERR 5, R, V and C set. -/
theorem test_status_out : (marked { st 8 1 2 3 4 with err := 5 }).statusOut = 0x000A0857 := by decide

/-! ### The assembler (rules R80, R81) -/

theorem test_assemble_numbers :
    assembleLine "PUSH 0o17".toList = .ok (some ⟨0x01000000, 15⟩) ∧
    assembleLine "PUSH 0b101".toList = .ok (some ⟨0x01000000, 5⟩) ∧
    assembleLine "  STOV 15,0x1fF ; slot".toList = .ok (some ⟨0x510F0000, 0x1FF⟩) := by decide

theorem test_assemble_refuses :
    assembleLine "SETWS 256".toList = .error .badNumber ∧ assembleLine "STO 0x3".toList = .error .badNumber ∧
    assembleLine "NOP".toList = .error .unknownForm ∧ assembleLine "; only a comment".toList = .ok none := by decide

/-! ### Witnesses: the hypotheses of each statement are met, at the ends of each range -/

theorem witness_DecodeThenEncodeReturnsWord :
    decode 0x510F0000 0x1FF = .ok (.stov 15 0x1FF) ∧ decode 0x10000000 7 = .ok .add := by decide

theorem witness_IllegalWordOnlyWritesErr :
    opField 0x06000000 ∉ opsWithoutArg ++ opsWithArg ∧ rsvField 0x10000001 ≠ 0 ∧
    (opField 0x10010000 ∈ opsWithoutArg ∧ argField 0x10010000 ≠ 0) ∧
    (given State.reset 0x10010000 0).host = PortInput.present 0x10010000 0 :: [] := by decide

theorem witness_DataIgnoredOutsidePushAndStov :
    opField 0x10000000 ≠ 0x01 ∧ opField 0x10000000 ≠ 0x51 := by decide

theorem witness_StepRunsDecodedCommand :
    (given State.reset 0x10000000 7).host = PortInput.present 0x10000000 7 :: [] ∧
    decode 0x10000000 7 = .ok .add := by decide

theorem witness_TableWordStepRunsInstr :
    decodeTableWord 32 0x52FF0000 = some (.rcl 255) := by decide

theorem witness_EngineWaitsWithoutCommand :
    State.reset.host = [] ∧
    ({ State.reset with host := [PortInput.idle] } : State).host = PortInput.idle :: [] ∧
    PortInput.idle.rst = false ∧ PortInput.idle.cmdValid = false ∧
    (given State.reset 0x10000000 7).host = PortInput.present 0x10000000 7 :: [] ∧
    (PortInput.present 0x10000000 7).rst = false := by decide

theorem witness_ResetSampleGivesResetState :
    ({ wide with host := [PortInput.assertRst] } : State).host = PortInput.assertRst :: [] ∧ PortInput.assertRst.rst = true ∧
    ({ wide with host := [⟨0x10000000, 0, true, true⟩] } : State).host = ⟨0x10000000, 0, true, true⟩ :: [] := by decide

theorem witness_StepKeepsLegalState :
    (given (st 1 1 0 1 0) 0x10000000 0).Inv ∧ (given (st 128 0 1 2 3) 0x41010000 0).Inv ∧
    goesTo (step (given (st 1 1 0 1 0) 0x10000000 0)) { st 1 1 1 0 0 with cmdDone := true } = true := by decide

theorem witness_ErrCodesExactlyWhenRaised :
    decode 0x13000000 0 = .ok .div ∧ field State.err (exec .div (st 8 5 0 0 0)) = some 1 ∧
    field State.err (exec (.rcl 16) State.reset) = some 2 ∧ field State.err (exec (.setws 0) State.reset) = some 3 ∧
    field State.err (exec (.setws 129) State.reset) = some 3 ∧ field State.err (exec (.setbase 9) State.reset) = some 4 ∧
    field State.err (executeCommand 0 0 State.reset) = some 5 ∧ field State.err (exec (.sto 15) State.reset) = some 0 := by decide

theorem witness_ErrorLeavesAllButErr :
    exec .div State.reset = .next { State.reset with err := 1, cmdDone := true } ∧ (1 : BitVec 4) ≠ 0 := ⟨rfl, by decide⟩

theorem witness_MarkAfterEveryCommand :
    field State.err (exec .enter State.reset) = some 0 ∧ field State.err (exec .div (marked (st 8 5 0 0 0))) = some 1 ∧
    field State.err (exec (.push 1) (marked State.reset)) = some 0 ∧ (marked State.reset).r = true ∧
    field State.err (exec (.rcl 15) State.reset) = some 0 ∧ State.reset.r = false := by decide

theorem witness_ResultsNeverReadFlagsBaseOrErr :
    (wide).SameInputs { wide with base := 2, c := false, v := false, err := 4, cmdDone := true } ∧
    wide ≠ { wide with base := 2, c := false, v := false, err := 4, cmdDone := true } := by decide

theorem witness_OnlyArithmeticAndSetwsWriteFlags :
    field State.c (exec .add (st 8 0xFF 1 0 0)) = some true ∧ (st 8 0xFF 1 0 0).c = false := by decide

theorem witness_OnlyConfigurationWritesWsAndBase :
    field State.ws (exec (.setws 128) State.reset) = some 128 ∧ field State.ws (exec (.setws 1) State.reset) = some 1 ∧
    field State.base (exec (.setbase 2) State.reset) = some 2 ∧ State.reset.ws = 64 ∧ State.reset.base = 10 := by decide

theorem witness_StackRegisterWriters :
    field State.x (exec .not (st 8 1 2 3 4)) = some 0xFE ∧ field State.y (exec .drop (st 8 1 2 3 4)) = some 3 ∧
    field State.z (exec (.push 7) (st 8 1 2 3 4)) = some 2 ∧ field State.t (exec .roll (st 8 1 2 3 4)) = some 1 := by decide

theorem witness_PushPrimitiveLiftsOrReplaces :
    State.reset.r = false ∧ (marked State.reset).r = true := by decide

theorem witness_PushMasksAndPushes :
    (st 1 1 0 1 0).WsLegal ∧ (st 1 1 0 1 0).r = false ∧ (marked (st 128 1 0 1 0)).WsLegal ∧
    (marked (st 128 1 0 1 0)).r = true ∧ opField 0x01010000 = 0x01 ∧ (0x01010000 : CmdWord) ≠ 0x01000000 ∧
    opField 0x01000001 = 0x01 ∧ (0x01000001 : CmdWord) ≠ 0x01000000 := by decide

theorem witness_SignedReadingInRange :
    (1#128).toNat < 2 ^ 1 ∧ (0xFFFFFFFFFFFFFFFFFFFFFFFFFFFFFFFF#128).toNat < 2 ^ 128 ∧ sgn 1 1 = -1 ∧ sgn 128 0xFFFFFFFFFFFFFFFFFFFFFFFFFFFFFFFF = -1 := by decide

/-- For AddGivesExactSumAndFlags, SubGivesExactDifferenceAndFlags, MulGivesExactProductAndFlags, AndOrXorCombine,
NotComplementsWithinWordSize and UnaryShiftsMoveByOne, which have the same hypotheses. -/
theorem witness_ArithmeticAndLogic :
    ((st 1 1 1 0 1).WsLegal ∧ (st 1 1 1 0 1).StackMasked) ∧ (st 128 0xFFFFFFFFFFFFFFFFFFFFFFFFFFFFFFFF 1 0 0).WsLegal ∧ (st 128 0xFFFFFFFFFFFFFFFFFFFFFFFFFFFFFFFF 1 0 0).StackMasked := by decide

theorem witness_DivGivesFloorQuotientOrError :
    (st 8 5 1 0 0).y ≠ 0 ∧ (st 8 5 0 0 0).y = 0 := by decide

theorem witness_ArithmeticShape :
    Instr.div ∈ [Instr.add, .sub, .mul, .div] ∧ (st 8 9 1 2 3).WsLegal ∧ (st 8 9 1 2 3).StackMasked ∧
    goesTo (exec .div (st 8 9 1 2 3)) { st 8 9 2 3 3 with cmdDone := true } = true := by decide

theorem witness_ArithmeticZeroLaws :
    ((st 8 0xFF 0 1 2).WsLegal ∧ (st 8 0xFF 0 1 2).StackMasked) ∧ (st 8 0xFF 0 1 2).y = 0 ∧
    ((st 8 0 1 1 2).WsLegal ∧ (st 8 0 1 1 2).StackMasked) ∧ (st 8 0 1 1 2).x = 0 ∧ (st 8 0 1 1 2).y ≠ 0 := by decide

theorem witness_ShiftFunctionsMatchFormulas :
    (1#128).toNat < 2 ^ 1 ∧ shl 1 1 1 = 0 ∧ shr 1 1 1 = 0 ∧ asr 1 1 0 = 1 ∧ (0xFFFFFFFFFFFFFFFFFFFFFFFFFFFFFFFF#128).toNat < 2 ^ 128 ∧
    shl 128 0xFFFFFFFFFFFFFFFFFFFFFFFFFFFFFFFF 200 = 0 ∧ asr 128 0xFFFFFFFFFFFFFFFFFFFFFFFFFFFFFFFF 127 = mask 128 := by decide

theorem witness_BinaryShiftsMoveByY :
    ((st 8 0x81 8 0 0).WsLegal ∧ (st 8 0x81 8 0 0).StackMasked) ∧ (st 8 0x81 8 0 0).ws.toNat ≤ (st 8 0x81 8 0 0).y.toNat ∧
    (st 8 0x81 8 0 0).y.toNat % (st 8 0x81 8 0 0).ws.toNat = 0 ∧ ((st 1 1 0 0 0).WsLegal ∧ (st 1 1 0 0 0).StackMasked) ∧ (st 1 1 0 0 0).y = 0 := by decide

theorem witness_RotationsPermuteBits :
    (1#128).toNat < 2 ^ 1 ∧ (0xFFFFFFFFFFFFFFFFFFFFFFFFFFFFFFFF#128).toNat < 2 ^ 128 ∧ rol 8 0x81 9 = 3 := by decide

theorem witness_SetbaseWritesBaseOrError :
    (10#8 = 2 ∨ 10#8 = 8 ∨ 10#8 = 10 ∨ 10#8 = 16) ∧ ¬(17#8 = 2 ∨ 17#8 = 8 ∨ 17#8 = 10 ∨ 17#8 = 16) := by decide

theorem witness_SetwsMasksEverythingOrError :
    Memory.wf wide.mem = true ∧ (1 ≤ (1#8).toNat ∧ (1#8).toNat ≤ 128) ∧ (1 ≤ (128#8).toNat ∧ (128#8).toNat ≤ 128) ∧
    ¬(1 ≤ (0#8).toNat ∧ (0#8).toNat ≤ 128) ∧ ¬(1 ≤ (129#8).toNat ∧ (129#8).toNat ≤ 128) := by decide

theorem witness_NarrowingLosesWideningKeeps :
    Memory.wf wide.mem = true ∧ 1 ≤ (8#8).toNat ∧ (8#8).toNat ≤ (16#8).toNat ∧ (16#8).toNat ≤ 128 ∧
    wide.Inv ∧ wide.ws.toNat ≤ (128#8).toNat ∧ (128#8).toNat ≤ 128 ∧ wide.ws.toNat < (128#8).toNat ∧
    (0x8000#128).toNat < 2 ^ wide.ws.toNat := by decide

theorem witness_ConfigurationOrderDoesNotMatter :
    (Instr.setws 1).argLegal = true ∧ (Instr.setbase 16).argLegal = true := by decide

theorem witness_IndexAboveFifteenIsAnError :
    15 < (16#8).toNat ∧ 15 < (255#8).toNat := by decide

/-- For StovStoresMaskedData too. -/
theorem witness_StoStoresX :
    15 < (16#8).toNat ∧ (15#8).toNat ≤ 15 ∧ (0#8).toNat ≤ 15 ∧ slots.WsLegal ∧ slots.StackMasked ∧ Memory.wf slots.mem = true := by decide

theorem witness_RclPushesSlot :
    15 < (16#8).toNat ∧ (15#8).toNat ≤ 15 ∧ slots.r = false ∧ (marked slots).r = true := by decide

theorem witness_SlotKeepsItsValue :
    field State.err (exec (.setws 4) slots) = some 0 ∧ Memory.wf slots.mem = true ∧
    field (slotRead 3) (exec (.sto 2) slots) = some 0x2A ∧ field (slotRead 3) (exec (.setws 4) slots) = some 0xA := by decide

/-- A store to one slot does not write another. -/
theorem sto_two_spares_three : ¬WritesSlot (.sto 2) 3 := by
  rintro (⟨a, h, ha⟩ | ⟨a, d, h, _⟩ | ⟨n, h⟩)
  · cases h; revert ha; decide
  · cases h
  · cases h

/-- Nor does a stack command. -/
theorem drop_spares_three : ¬WritesSlot .drop 3 := by
  rintro (⟨a, h, _⟩ | ⟨a, d, h, _⟩ | ⟨n, h⟩) <;> cases h

/-- For RecallGivesWhatWasStored and SlotKeepsItsValue: commands that spare slot 3, in a legal state. -/
theorem witness_RecallGivesWhatWasStored :
    (3#8).toNat ≤ 15 ∧ slots.Inv ∧ ∀ i ∈ [Instr.sto 2, .drop], ¬WritesSlot i (3#8).toNat := by
  refine ⟨by decide, by decide, ?_⟩
  intro i hi
  simp only [List.mem_cons, List.not_mem_nil, or_false] at hi
  rcases hi with rfl | rfl
  · exact sto_two_spares_three
  · exact drop_spares_three

theorem witness_RepeatedStoLeavesSameState :
    Memory.wf slots.mem = true := by decide

end Sys2Proof.Tests
end

section
/-! ### What a command can leave

Every command but ENTER ends in `commit`, and ENTER raises no error: so a command completes with ERR 0 or is exactly
`raiseError` on the state before it (rules R11, R220). -/

namespace Sys2Proof.Machine

/-- Every command but ENTER, which sets the mark after its completion, ends in `commit` (rules R11, R12, R102). -/
theorem exec_eq_commit {i : Instr} (hi : i ≠ .enter) (s : State) : ∃ o, exec i s = commit s o := by
  cases i with
  | enter => exact absurd rfl hi
  | _ =>
    simp only [exec]
    exact ⟨_, rfl⟩

/-- ENTER always completes, and it alone sets the mark (rule R102). -/
theorem exec_enter (s : State) : exec .enter s = .next (setMark (completed (lift s))) := rfl

/-- The shape of the state a command leaves: ENTER's marked state, a completed state, or the state before with the error
alone. -/
theorem exec_next_cases {i : Instr} {s t : State} (h : exec i s = .next t) :
    (i = .enter ∧ t = setMark (completed (lift s))) ∨
      (i ≠ .enter ∧ ((∃ s', t = completed s') ∨ ∃ k, t = raiseError k s)) := by
  by_cases hi : i = .enter
  · subst hi
    rw [exec_enter] at h
    exact .inl ⟨rfl, (Host.Outcome.next.inj h).symm⟩
  · obtain ⟨o, ho⟩ := exec_eq_commit hi s
    rcases commit_next (ho ▸ h) with ⟨s', _, ht⟩ | ⟨k, _, ht⟩
    · exact .inr ⟨hi, .inl ⟨s', ht⟩⟩
    · exact .inr ⟨hi, .inr ⟨k, ht⟩⟩

/-- A command that leaves ERR other than 0 has raised an error. -/
theorem exec_next_of_err_ne_zero {i : Instr} {s t : State} (h : exec i s = .next t) (herr : t.err ≠ 0) :
    ∃ k, t = raiseError k s := by
  rcases exec_next_cases h with ⟨_, rfl⟩ | ⟨_, ⟨s', rfl⟩ | hk⟩
  · exact absurd (completed_err (lift s)) herr
  · exact absurd (completed_err s') herr
  · exact hk

/-- Settles O17: the command raised an error, and `raiseError` writes ERR and CMD_DONE alone. -/
theorem errorLeavesAllButErr : Obligations.ErrorLeavesAllButErr := by
  intro i s t h herr
  obtain ⟨k, rfl⟩ := exec_next_of_err_ne_zero h herr
  rfl

end Sys2Proof.Machine
end

section
/-! ### The signed reading (rule R9)

The sign bit of an n-bit value says on which side of 2^(n-1) it lies, so the signed reading is one of two linear
expressions, each with its range. -/

namespace Sys2Proof.Machine

variable {n : Nat} {v : Word}

/-- The signed reading is congruent to the value modulo 2^n. -/
theorem sgn_emod (n : Nat) (v : Word) : sgn n v % ((2 ^ n : Nat) : Int) = (v.toNat : Int) % ((2 ^ n : Nat) : Int) := by
  unfold sgn
  split
  · exact Int.sub_emod_right _ _
  · rfl

/-- The sign bit of an n-bit value says that it is in the upper half of [0, 2^n). -/
theorem signBit_iff_le (hn : 1 ≤ n) (hv : v.toNat < 2 ^ n) : signBit n v = true ↔ 2 ^ (n - 1) ≤ v.toNat := by
  rw [signBit, BitVec.getLsbD]
  constructor
  · exact Nat.ge_two_pow_of_testBit
  · intro hle
    exact Nat.testBit_of_two_pow_le_and_two_pow_add_one_gt hle (by rwa [Nat.sub_add_cancel hn])

theorem sgn_of_lt (hn : 1 ≤ n) (hv : v.toNat < 2 ^ (n - 1)) : sgn n v = v.toNat := by
  have hlt : v.toNat < 2 ^ n := lt_of_lt_of_le hv (Nat.pow_le_pow_right (by decide) (Nat.sub_le n 1))
  exact if_neg fun h => Nat.not_le.mpr hv ((signBit_iff_le hn hlt).mp h)

theorem sgn_of_le (hn : 1 ≤ n) (hv : v.toNat < 2 ^ n) (hle : 2 ^ (n - 1) ≤ v.toNat) :
    sgn n v = (v.toNat : Int) - ((2 ^ n : Nat) : Int) :=
  if_pos ((signBit_iff_le hn hv).mpr hle)

/-- The signed reading of an n-bit value lies in SRANGE(n). -/
theorem sgn_mem_range (hn : 1 ≤ n) (hv : v.toNat < 2 ^ n) :
    -((2 ^ (n - 1) : Nat) : Int) ≤ sgn n v ∧ sgn n v ≤ ((2 ^ (n - 1) : Nat) : Int) - 1 := by
  have hdouble : 2 ^ n = 2 * 2 ^ (n - 1) := (mul_pow_sub_one (by omega) 2).symm
  rcases Nat.lt_or_ge v.toNat (2 ^ (n - 1)) with hlt | hle
  · rw [sgn_of_lt hn hlt]
    omega
  · rw [sgn_of_le hn hv hle]
    omega

/-- Wrapping the signed reading of an n-bit value gives the value back. -/
theorem wrap_sgn (hn : n ≤ 128) (hv : v.toNat < 2 ^ n) : wrap n (sgn n v) = v := by
  apply BitVec.eq_of_toNat_eq
  have h : ((wrap n (sgn n v)).toNat : Int) = (v.toNat : Int) :=
    calc ((wrap n (sgn n v)).toNat : Int)
      _ = sgn n v % ((2 ^ n : Nat) : Int) := toNat_wrap hn _
      _ = (v.toNat : Int) % ((2 ^ n : Nat) : Int) := sgn_emod n v
      _ = v.toNat := Int.emod_eq_of_lt (Int.natCast_nonneg _) (by exact_mod_cast hv)
  exact_mod_cast h

end Sys2Proof.Machine
end

section
namespace Sys2Proof.Machine

/-- Settles O27: the formula is the definition, the range and the wrapping are `sgn_mem_range` and `wrap_sgn`. -/
theorem signedReadingInRange : Obligations.SignedReadingInRange := by
  intro n v hn hn128 hv
  have hformula : sgn n v = if v.getLsbD (n - 1) then (v.toNat : Int) - 2 ^ n else (v.toNat : Int) := by
    simp only [sgn, signBit, Nat.cast_pow, Nat.cast_ofNat]
  obtain ⟨hlo, hhi⟩ := sgn_mem_range hn hv
  push_cast at hlo hhi
  exact ⟨hformula, hlo, hhi, wrap_sgn hn128 hv⟩

end Sys2Proof.Machine
end

section
/-! ### The lift-disabled mark (rule R25)

`completed` clears the mark, ENTER alone sets it after completion, and `raiseError` keeps it. PUSH and RCL read it
through the one push primitive. -/

namespace Sys2Proof.Machine

variable {i : Instr} {s t : State}

/-- After a command that raised no error the mark says whether it was ENTER. -/
theorem exec_next_r_of_err_eq_zero (h : exec i s = .next t) (herr : t.err = 0) : t.r = decide (i = .enter) := by
  rcases exec_next_cases h with ⟨hi, rfl⟩ | ⟨hi, ⟨s', rfl⟩ | ⟨k, rfl⟩⟩
  · simp [hi]
  · simp [hi]
  · exact absurd herr (code_range k).1

/-- A command that raised an error keeps the mark. -/
theorem exec_next_r_of_err_ne_zero (h : exec i s = .next t) (herr : t.err ≠ 0) : t.r = s.r := by
  obtain ⟨k, rfl⟩ := exec_next_of_err_ne_zero h herr
  exact raiseError_r s k

theorem exec_push (data : Word) (s : State) :
    exec (.push data) s = .next (completed (pushval (dataOperand s data) s)) := rfl

/-- A PUSH or RCL that completes without error is the push primitive on some value (rules R101, R203). -/
theorem exec_push_or_rcl_next (h : exec i s = .next t) (herr : t.err = 0)
    (hi : (∃ d, i = .push d) ∨ ∃ a, i = .rcl a) : ∃ w, t = completed (pushval w s) := by
  rcases hi with ⟨d, rfl⟩ | ⟨a, rfl⟩
  · rw [exec_push] at h
    exact ⟨_, (Host.Outcome.next.inj h).symm⟩
  · rcases Nat.lt_or_ge a.toNat 16 with hlt | hge
    · rw [exec_rcl_ok s hlt] at h
      exact ⟨_, (Host.Outcome.next.inj h).symm⟩
    · rw [exec_rcl_error s hge] at h
      cases Host.Outcome.next.inj h
      exact absurd herr (code_range .invalidMemoryIndex).1

/-- Under the mark the push primitive replaces X alone (rule R100). -/
theorem pushval_of_mark (w : Word) (hr : s.r = true) : pushval w s = { setX w s with r := false } := if_pos hr

/-- Without the mark the push primitive lifts the stack first (rule R100). -/
theorem pushval_of_no_mark (w : Word) (hr : s.r = false) : pushval w s = { setX w (lift s) with r := false } :=
  if_neg (Bool.eq_false_iff.mp hr)

end Sys2Proof.Machine
end

section
/-! ### The fields of STATUS_OUT (rule R28)

A field of a word laid out by `++` is what stands there: `extractLsb'` passes the parts below the field, as often as
`iterate` says, and takes the next. -/

namespace Sys2Proof.Machine

variable (s : State)

theorem statusOut_c : s.statusOut.getLsbD 0 = s.c := by
  simp only [State.statusOut, BitVec.getLsbD_append]
  simp

theorem statusOut_v : s.statusOut.getLsbD 1 = s.v := by
  simp only [State.statusOut, BitVec.getLsbD_append]
  simp

theorem statusOut_r : s.statusOut.getLsbD 2 = s.r := by
  simp only [State.statusOut, BitVec.getLsbD_append]
  simp

theorem statusOut_bit3 : s.statusOut.getLsbD 3 = false := by
  simp only [State.statusOut, BitVec.getLsbD_append]
  simp

theorem statusOut_err : s.statusOut.extractLsb' 4 4 = s.err := by
  unfold State.statusOut
  iterate 4 rw [BitVec.extractLsb'_append_eq_of_le (by decide)]
  exact BitVec.extractLsb'_append_eq_right

theorem statusOut_ws : s.statusOut.extractLsb' 8 8 = s.ws := by
  unfold State.statusOut
  iterate 5 rw [BitVec.extractLsb'_append_eq_of_le (by decide)]
  exact BitVec.extractLsb'_append_eq_right

theorem statusOut_base : s.statusOut.extractLsb' 16 8 = s.base := by
  unfold State.statusOut
  iterate 6 rw [BitVec.extractLsb'_append_eq_of_le (by decide)]
  exact BitVec.extractLsb'_append_eq_right

theorem statusOut_reserved : s.statusOut.extractLsb' 24 8 = 0 := by
  unfold State.statusOut
  iterate 7 rw [BitVec.extractLsb'_append_eq_of_le (by decide)]
  exact BitVec.extractLsb'_eq_self

end Sys2Proof.Machine
end

section
namespace Sys2Proof.Machine

/-- Settles O18: the mark after a command by whether it raised an error; PUSH and RCL by the push primitive's two
branches. -/
theorem markAfterEveryCommand : Obligations.MarkAfterEveryCommand := by
  refine ⟨fun i s t h => ⟨exec_next_r_of_err_eq_zero h, exec_next_r_of_err_ne_zero h⟩, ?_, statusOut_r, reset_r⟩
  intro s t i h herr hi
  obtain ⟨w, rfl⟩ := exec_push_or_rcl_next h herr hi
  constructor
  · intro hr
    rw [pushval_of_mark w hr]
    exact ⟨rfl, rfl, rfl⟩
  · intro hr
    rw [pushval_of_no_mark w hr]
    exact ⟨rfl, rfl, rfl⟩

/-- No slot is listed after reset, so every slot reads 0. -/
theorem slotRead_reset (i : Nat) : slotRead i State.reset = 0 := rfl

/-- Settles O12: each element of the state by the row of the reset table it takes. -/
theorem resetStateValues : Obligations.ResetStateValues :=
  ⟨reset_x, reset_y, reset_z, reset_t, fun i _ => slotRead_reset i, reset_ws, reset_base, reset_c, reset_v, reset_r,
    reset_err⟩

/-- Settles O52: the stack ports are the registers, STATUS_OUT field by field. -/
theorem portsShowState : Obligations.PortsShowState :=
  ⟨fun s => ⟨rfl, rfl, rfl, rfl, statusOut_c s, statusOut_v s, statusOut_r s, statusOut_bit3 s, statusOut_err s,
    statusOut_ws s, statusOut_base s, statusOut_reserved s⟩, by decide⟩

end Sys2Proof.Machine
end

section
/-! ### What a command does to the slots (rules R31, R50, R51, R62)

Only STO, STOV and SETWS write the slot file. STO and STOV replace the one slot they name; a SETWS that completes masks
every slot. -/

namespace Sys2Proof.Machine

variable {s t : State} {k : Nat}

/-- The push primitive writes no slot (rule R100). -/
@[simp] theorem pushval_mem (w : Word) (s : State) : (pushval w s).mem = s.mem := by
  rcases pushval_cases w s with ⟨_, h⟩ | ⟨_, h⟩ <;> simp [h]

/-- A command whose effect keeps the slot file leaves it as it was, whether or not its operand check fails. -/
theorem commit_map_next_mem {α : Type} {e : Except ErrorKind α} {f : α → State} (hf : ∀ a, (f a).mem = s.mem)
    (h : commit s (e.map f) = .next t) : t.mem = s.mem := by
  cases e with
  | ok a =>
    obtain rfl := Host.Outcome.next.inj h
    exact hf a
  | error e =>
    obtain rfl := Host.Outcome.next.inj h
    exact raiseError_mem s e

/-- A command that writes the slot named by ARG leaves every other slot alone, whether or not the index is in range. -/
theorem commit_slotWrite_next_slotRead_other {arg : Field8} {w : Word} (hk : k ≠ arg.toNat)
    (h : commit s ((slotOperand arg).map fun i => slotWrite i w s) = .next t) : slotRead k t = slotRead k s := by
  rcases slotOperand_cases arg with ⟨_, harg⟩ | ⟨_, harg⟩ <;>
    (rw [harg] at h; obtain rfl := Host.Outcome.next.inj h)
  · exact slotRead_slotWrite_other s w hk
  · rfl

/-- An instruction that writes no slot leaves the whole slot file. -/
theorem exec_next_mem {i : Instr} (hi : ∀ k, ¬WritesSlot i k) (h : exec i s = .next t) : t.mem = s.mem := by
  cases i with
  | sto a => exact absurd (.inl ⟨a, rfl, rfl⟩) (hi a.toNat)
  | stov a d => exact absurd (.inr (.inl ⟨a, d, rfl, rfl⟩)) (hi a.toNat)
  | setws n => exact absurd (.inr (.inr ⟨n, rfl⟩)) (hi 0)
  | push data =>
    obtain rfl := Host.Outcome.next.inj h
    exact pushval_mem _ s
  | div => exact commit_map_next_mem (applyArith_mem s) h
  | setbase a => exact commit_map_next_mem (setBase_mem s) h
  | rcl a => exact commit_map_next_mem (fun j => pushval_mem (slotRead j s) s) h
  | _ =>
    obtain rfl := Host.Outcome.next.inj h
    rfl

/-- A slot keeps its value across every command that does not write it (rule R62). -/
theorem exec_next_slotRead {i : Instr} (hi : ¬WritesSlot i k) (h : exec i s = .next t) :
    slotRead k t = slotRead k s := by
  by_cases hnone : ∀ j, ¬WritesSlot i j
  · exact slotRead_eq (exec_next_mem hnone h) k
  · obtain ⟨j, hj⟩ := not_forall_not.mp hnone
    rcases hj with ⟨a, rfl, _⟩ | ⟨a, d, rfl, _⟩ | ⟨n, rfl⟩
    · exact commit_slotWrite_next_slotRead_other (fun hk => hi (.inl ⟨a, rfl, hk.symm⟩)) h
    · exact commit_slotWrite_next_slotRead_other (fun hk => hi (.inr (.inl ⟨a, d, rfl, hk.symm⟩))) h
    · exact absurd (.inr (.inr ⟨n, rfl⟩)) hi

/-- A SETWS without error was given a word size, and leaves the state re-masked to it (rule R191). -/
theorem exec_setws_next_of_err_eq_zero {n : Field8} (h : exec (.setws n) s = .next t) (herr : t.err = 0) :
    n.toNat ≤ 128 ∧ t = completed (setWordSize n s) := by
  by_cases hn : 1 ≤ n.toNat ∧ n.toNat ≤ 128
  · rw [exec_setws_ok s hn] at h
    exact ⟨hn.2, (Host.Outcome.next.inj h).symm⟩
  · rw [exec_setws_error s hn] at h
    obtain rfl := Host.Outcome.next.inj h
    exact absurd herr (code_range .invalidWordSize).1

/-- Settles O49: the slot's frame is `exec_next_slotRead`; a SETWS without error masks each slot, and to mask is to
reduce modulo 2^n. -/
theorem slotKeepsItsValue : Obligations.SlotKeepsItsValue := by
  refine ⟨fun i k s t hi h => exec_next_slotRead hi h, ?_⟩
  intro n k s t hwf h herr
  obtain ⟨hn, rfl⟩ := exec_setws_next_of_err_eq_zero h herr
  calc (slotRead k (completed (setWordSize n s))).toNat
    _ = (slotRead k (setWordSize n s)).toNat := rfl
    _ = (maskTo n.toNat (slotRead k s)).toNat := by rw [slotRead_setWordSize n hwf]
    _ = (slotRead k s).toNat % 2 ^ n.toNat := toNat_maskTo hn _

end Sys2Proof.Machine
end

section
/-! ### Decoding by match and mask (rules R71, R75, R82)

A command word is its three fields, so the test `CMD & mask = match` of a row says what each field holds. The rows have
distinct opcodes, so a word matches at most one of them, and the decoder's search finds that one. -/

namespace Sys2Proof

/-- The fields OP, ARG and RSV, side by side, are the whole command word (rule R71). -/
theorem fields_append (cmd : CmdWord) : opField cmd ++ argField cmd ++ rsvField cmd = cmd := by
  have hhigh : opField cmd ++ argField cmd = cmd.extractLsb' 16 16 :=
    BitVec.extractLsb'_append_extractLsb'_eq_extractLsb' rfl
  have hall : cmd.extractLsb' 16 16 ++ rsvField cmd = cmd.extractLsb' 0 32 :=
    BitVec.extractLsb'_append_extractLsb'_eq_extractLsb' rfl
  rw [hhigh, hall]
  exact BitVec.extractLsb'_eq_self

/-- Two command words are equal exactly when their fields are. -/
theorem cmdWord_eq_iff {cmd cmd' : CmdWord} :
    cmd = cmd' ↔ opField cmd = opField cmd' ∧ argField cmd = argField cmd' ∧ rsvField cmd = rsvField cmd' := by
  constructor
  · rintro rfl
    exact ⟨rfl, rfl, rfl⟩
  · rintro ⟨hop, harg, hrsv⟩
    rw [← fields_append cmd, ← fields_append cmd', hop, harg, hrsv]

@[simp] theorem opField_and (a b : CmdWord) : opField (a &&& b) = opField a &&& opField b := BitVec.extractLsb'_and

@[simp] theorem argField_and (a b : CmdWord) : argField (a &&& b) = argField a &&& argField b := BitVec.extractLsb'_and

@[simp] theorem rsvField_and (a b : CmdWord) : rsvField (a &&& b) = rsvField a &&& rsvField b := BitVec.extractLsb'_and

namespace OpRow

variable (row : OpRow)

theorem pattern_eq_packCmd : row.pattern = packCmd row.op 0 := rfl

@[simp] theorem opField_mask : opField row.mask = BitVec.allOnes 8 := by
  unfold mask
  split <;> rfl

@[simp] theorem rsvField_mask : rsvField row.mask = BitVec.allOnes 16 := by
  unfold mask
  split <;> rfl

@[simp] theorem argField_mask : argField row.mask = if row.format.usesArg then 0 else BitVec.allOnes 8 := by
  unfold mask
  split <;> rfl

/-- A word matches a row exactly when it has the row's OP, RSV is 0, and ARG is 0 where the format does not use it
(rules R75, R82). -/
theorem matches_iff {row : OpRow} {cmd : CmdWord} :
    cmd &&& row.mask = row.pattern ↔
      opField cmd = row.op ∧ (row.format.usesArg = false → argField cmd = 0) ∧ rsvField cmd = 0 := by
  rw [cmdWord_eq_iff, pattern_eq_packCmd]
  cases h : row.format.usesArg <;> simp [h, -BitVec.reduceAllOnes]

end OpRow

/-- The opcodes of the table are the two opcode lists of the reserved-field check, in order. -/
theorem opTable_map_op : opTable.map OpRow.op = opsWithoutArg ++ opsWithArg := rfl

/-- A row of the table is known by its OP (rule R74). -/
theorem opTable_eq_of_op_eq {row row' : OpRow} (h : row ∈ opTable) (h' : row' ∈ opTable) (hop : row.op = row'.op) :
    row = row' :=
  List.inj_on_of_nodup_map (by decide : (opTable.map OpRow.op).Nodup) h h' hop

/-- An opcode without ARG stands in a row whose format does not use ARG. -/
theorem usesArg_of_mem_opsWithoutArg : ∀ row ∈ opTable, row.op ∈ opsWithoutArg → row.format.usesArg = false := by
  decide

/-- The decoder's search of the table finds the one row with the OP it looks for. -/
theorem opTable_find?_eq_some_iff {op : Field8} {row : OpRow} :
    opTable.find? (fun r => r.op == op) = some row ↔ row ∈ opTable ∧ row.op = op := by
  constructor
  · intro hf
    exact ⟨List.mem_of_find?_eq_some hf, by simpa using List.find?_some hf⟩
  · rintro ⟨hrow, rfl⟩
    cases hf : opTable.find? (fun r => r.op == row.op) with
    | none => exact absurd BEq.rfl (List.find?_eq_none.mp hf row hrow)
    | some row' =>
      have hop : row'.op = row.op := by simpa using List.find?_some hf
      rw [opTable_eq_of_op_eq (List.mem_of_find?_eq_some hf) hrow hop]

/-- A word that matches a row of the table decodes to that row's command (rule R82). -/
theorem decode_of_matches {row : OpRow} {cmd : CmdWord} (hrow : row ∈ opTable) (h : cmd &&& row.mask = row.pattern)
    (data : Word) : decode cmd data = .ok (row.build (argField cmd) data) := by
  obtain ⟨hop, harg, hrsv⟩ := OpRow.matches_iff.mp h
  have hfind : opTable.find? (fun r => r.op == opField cmd) = some row :=
    opTable_find?_eq_some_iff.mpr ⟨hrow, hop.symm⟩
  rw [decode, decodeFields, hfind]
  exact (if_neg (not_not_intro hrsv)).trans (if_neg fun ⟨hu, hne⟩ => hne (harg hu))

/-- A word that matches no row is illegal, and why is read from CMD alone (rules R75, R77, R82). -/
theorem decode_of_matches_none {cmd : CmdWord} (h : ∀ row ∈ opTable, cmd &&& row.mask ≠ row.pattern) :
    ∃ e, ∀ data, decode cmd data = .error e := by
  simp only [decode, decodeFields]
  cases hf : opTable.find? (fun r => r.op == opField cmd) with
  | none => exact ⟨_, fun _ => rfl⟩
  | some row =>
    obtain ⟨hrow, hop⟩ := opTable_find?_eq_some_iff.mp hf
    by_cases hrsv : rsvField cmd = 0
    · have harg : row.format.usesArg = false ∧ argField cmd ≠ 0 :=
        Classical.not_imp.mp fun harg => h row hrow (OpRow.matches_iff.mpr ⟨hop.symm, harg, hrsv⟩)
      exact ⟨.reservedArg, fun _ => (if_neg (not_not_intro hrsv)).trans (if_pos harg)⟩
    · exact ⟨.reservedRsv, fun _ => if_pos hrsv⟩

/-- Everything decoding can do: the command of the one row the word matches, or an error when it matches none. -/
theorem decode_cases (cmd : CmdWord) :
    (∃ row ∈ opTable, cmd &&& row.mask = row.pattern ∧ ∀ data, decode cmd data = .ok (row.build (argField cmd) data)) ∨
      ((∀ row ∈ opTable, cmd &&& row.mask ≠ row.pattern) ∧ ∃ e, ∀ data, decode cmd data = .error e) := by
  by_cases h : ∃ row ∈ opTable, cmd &&& row.mask = row.pattern
  · obtain ⟨row, hrow, hm⟩ := h
    exact .inl ⟨row, hrow, hm, decode_of_matches hrow hm⟩
  · have hnone : ∀ row ∈ opTable, cmd &&& row.mask ≠ row.pattern := fun row hrow hm => h ⟨row, hrow, hm⟩
    exact .inr ⟨hnone, decode_of_matches_none hnone⟩

/-- Settles O3: two rows that a word matches have its OP, so they are one row. -/
theorem decodeByMatchAndMask : Obligations.DecodeByMatchAndMask := by
  refine ⟨rfl, fun cmd => ?_⟩
  rcases decode_cases cmd with ⟨row, hrow, hm, hdec⟩ | ⟨hnone, e, hdec⟩
  · refine .inl ⟨row, hrow, hm, fun row' hrow' hm' => ?_, hdec⟩
    have hop : row'.op = row.op := (OpRow.matches_iff.mp hm').1.symm.trans (OpRow.matches_iff.mp hm).1
    exact opTable_eq_of_op_eq hrow' hrow hop
  · exact .inr ⟨hnone, fun data => ⟨e, hdec data⟩⟩

end Sys2Proof
end

section
/-! ### Presenting a command word (rules R70, R76, R223, R224)

What a presented word does is a function of what it decodes to. An illegal word raises IllegalCommand; DATA counts only
in the operand of PUSH and STOV. -/

namespace Sys2Proof.Machine

/-- A presented word is taken from the host and executed on the state that has accepted it (rules R70, R224). -/
theorem step_present {s : State} {cmd : CmdWord} {data : Word} {rest : List PortInput}
    (h : s.host = PortInput.present cmd data :: rest) :
    step s = executeCommand cmd data (accept { s with host := rest }) := by
  rw [step, h]
  rfl

theorem executeCommand_of_error {cmd : CmdWord} {data : Word} {e : DecodeError} (h : decode cmd data = .error e)
    (s : State) : executeCommand cmd data s = .next (raiseError .illegalCommand s) := by
  rw [executeCommand, h]

theorem executeCommand_congr {cmd cmd' : CmdWord} {data data' : Word} (h : decode cmd data = decode cmd' data')
    (s : State) : executeCommand cmd data s = executeCommand cmd' data' s := by
  rw [executeCommand, executeCommand, h]

/-- The illegal words of rules R75 and R77 match no row. -/
theorem matches_none_of_illegal {cmd : CmdWord}
    (h : opField cmd ∉ opsWithoutArg ++ opsWithArg ∨ rsvField cmd ≠ 0 ∨ opField cmd ∈ opsWithoutArg ∧ argField cmd ≠ 0) :
    ∀ row ∈ opTable, cmd &&& row.mask ≠ row.pattern := by
  intro row hrow hm
  obtain ⟨hop, harg, hrsv⟩ := OpRow.matches_iff.mp hm
  rcases h with hundef | hne | ⟨hmem, hne⟩
  · rw [← opTable_map_op, hop] at hundef
    exact hundef (List.mem_map_of_mem hrow)
  · exact hne hrsv
  · exact hne (harg (usesArg_of_mem_opsWithoutArg row hrow (hop ▸ hmem)))

/-- Settles O5: the word matches no row, so it decodes to an error, and `raiseError` writes ERR and CMD_DONE alone. -/
theorem illegalWordOnlyWritesErr : Obligations.IllegalWordOnlyWritesErr := by
  intro s cmd data rest hillegal hhost
  obtain ⟨e, hdec⟩ := decode_of_matches_none (matches_none_of_illegal hillegal)
  rw [step_present hhost, executeCommand_of_error (hdec data)]
  rfl

/-- The command of a row other than PUSH and STOV does not carry DATA (rule R76). -/
theorem build_ignores_data (arg : Field8) (data data' : Word) :
    ∀ row ∈ opTable, row.op ≠ 0x01 → row.op ≠ 0x51 → row.build arg data = row.build arg data' := by
  simp [opTable, opRowsStack, opRowsArith, opRowsBitwise, opRowsUnary, opRowsBinary, opRowsArg, rowN]

/-- A word of an opcode other than PUSH and STOV decodes alike whatever DATA is (rule R76). -/
theorem decode_ignores_data {cmd : CmdWord} (hpush : opField cmd ≠ 0x01) (hstov : opField cmd ≠ 0x51)
    (data data' : Word) : decode cmd data = decode cmd data' := by
  rcases decode_cases cmd with ⟨row, hrow, hm, hdec⟩ | ⟨_, e, hdec⟩
  · have hop := (OpRow.matches_iff.mp hm).1
    rw [hdec, hdec, build_ignores_data _ data data' row hrow (hop ▸ hpush) (hop ▸ hstov)]
  · rw [hdec, hdec]

/-- Settles O6: the two words decode alike, and a step depends on DATA through decoding alone. -/
theorem dataIgnoredOutsidePushAndStov : Obligations.DataIgnoredOutsidePushAndStov := by
  intro s cmd data data' rest hpush hstov
  rw [step_present rfl, step_present rfl]
  exact executeCommand_congr (decode_ignores_data hpush hstov data data') _

end Sys2Proof.Machine
end

section
namespace Sys2Proof.Machine

/-- Settles O53: closed facts about fourteen fixed lines, each assembled by evaluation (rule R81). -/
theorem pseudoInstructionsExpand : Obligations.PseudoInstructionsExpand := by
  unfold Obligations.PseudoInstructionsExpand
  decide

end Sys2Proof.Machine
end

section
/-! ### Masked operands, unused fields and runs of commands

The data operand is DATA modulo 2^ws (rules R8, R73). A word whose opcode does not use ARG is legal in one form alone, ARG
and RSV 0 (rule R75). A run goes on from the state its first command leaves (rule R258). -/

namespace Sys2Proof.Machine

theorem maskTo_eq_ofNat {n : Nat} (hn : n ≤ 128) (w : Word) : maskTo n w = BitVec.ofNat 128 (w.toNat % 2 ^ n) :=
  BitVec.eq_of_toNat_eq ((toNat_maskTo hn w).trans (toNat_ofNat_mod hn _).symm)

/-- The data operand of PUSH and STOV in a legal word size (rules R101, R202). -/
theorem dataOperand_eq_ofNat {s : State} (hws : s.WsLegal) (data : Word) :
    dataOperand s data = BitVec.ofNat 128 (data.toNat % 2 ^ s.ws.toNat) :=
  maskTo_eq_ofNat hws.2 data

/-- Executing a word whose opcode uses no ARG, other than the one with ARG and RSV 0, raises IllegalCommand
(rules R75, R223). -/
theorem executeCommand_of_ne_packCmd {cmd : CmdWord} (hop : opField cmd ∈ opsWithoutArg)
    (hne : cmd ≠ packCmd (opField cmd) 0) (data : Word) (s : State) :
    executeCommand cmd data s = .next (raiseError .illegalCommand s) := by
  have hreserved : rsvField cmd ≠ 0 ∨ opField cmd ∈ opsWithoutArg ∧ argField cmd ≠ 0 := by
    by_contra! ⟨hrsv, harg⟩
    exact hne (by rw [← harg hop, packCmd_fields hrsv])
  obtain ⟨e, hdec⟩ := decode_of_matches_none (matches_none_of_illegal (.inr hreserved))
  exact executeCommand_of_error (hdec data) s

theorem execAll_cons_of_next {i : Instr} {s t : State} (h : exec i s = .next t) (rest : List Instr) :
    execAll (i :: rest) s = execAll rest t := by
  rw [execAll, h]

end Sys2Proof.Machine
end

section
/-! ### The stack commands (40_stack.md)

What PUSH, DROP, SWAP and ROLL leave, as one equation each; `exec_enter` is ENTER's. A run of several is these equations
in a row. -/

namespace Sys2Proof.Machine

variable (s : State)

/-- Settles O23: the two branches of the push primitive. -/
theorem pushPrimitiveLiftsOrReplaces : Obligations.PushPrimitiveLiftsOrReplaces :=
  fun w _ => ⟨pushval_of_no_mark w, pushval_of_mark w⟩

/-- Settles O24: the word's other forms have a reserved field that is not 0; the pushed value is the masked operand, and
the push primitive's branches give the two states. -/
theorem pushMasksAndPushes : Obligations.PushMasksAndPushes := by
  refine ⟨fun _ => rfl, ?_, ?_⟩
  · intro cmd data s hop hne
    have hmem : opField cmd ∈ opsWithoutArg := by rw [hop]; decide
    exact executeCommand_of_ne_packCmd hmem (by rwa [hop]) data s
  · intro data s hws
    rw [exec_push, dataOperand_eq_ofNat hws]
    constructor
    · intro hr
      rw [pushval_of_no_mark _ hr]
      rfl
    · intro hr
      rw [pushval_of_mark _ hr]
      rfl

/-- Settles O25: the word by evaluating the decoder, the state by `exec_enter`. -/
theorem enterLiftsAndMarks : Obligations.EnterLiftsAndMarks :=
  ⟨fun _ => rfl, exec_enter⟩

theorem exec_drop :
    exec .drop s = .next { s with x := s.y, y := s.z, z := s.t, r := false, err := 0, cmdDone := true } := rfl

theorem exec_swap :
    exec .swap s = .next { s with x := s.y, y := s.x, r := false, err := 0, cmdDone := true } := rfl

theorem exec_roll :
    exec .roll s = .next { s with x := s.y, y := s.z, z := s.t, t := s.x, r := false, err := 0, cmdDone := true } := rfl

/-- Four DROPs fill the stack with T (rule R103). -/
theorem execAll_four_drops :
    execAll [.drop, .drop, .drop, .drop] s =
      .next { s with x := s.t, y := s.t, z := s.t, r := false, err := 0, cmdDone := true } := by
  iterate 4 rw [execAll_cons_of_next (exec_drop _)]
  rfl

/-- Two SWAPs restore the stack (rule R104). -/
theorem execAll_two_swaps :
    execAll [.swap, .swap] s = .next { s with r := false, err := 0, cmdDone := true } := by
  iterate 2 rw [execAll_cons_of_next (exec_swap _)]
  rfl

/-- Four ROLLs restore the stack (rule R105). -/
theorem execAll_four_rolls :
    execAll [.roll, .roll, .roll, .roll] s = .next { s with r := false, err := 0, cmdDone := true } := by
  iterate 4 rw [execAll_cons_of_next (exec_roll _)]
  rfl

/-- Settles O26: the words by evaluating the decoder, each command and each run by its equation. -/
theorem dropSwapRollMoveRegisters : Obligations.DropSwapRollMoveRegisters :=
  ⟨fun _ => ⟨rfl, rfl, rfl⟩, fun s => ⟨exec_drop s, exec_swap s, exec_roll s, execAll_four_drops s, execAll_two_swaps s,
    execAll_four_rolls s⟩⟩

end Sys2Proof.Machine
end

section
/-! ### Signed overflow (rules R9, R121, R122)

A sum or difference of two signed readings lies in [-2^n, 2^n), where wrapping keeps the sign exactly of the integers in
SRANGE(n). So overflow can be read from the sign bits of the operands and of the result. -/

namespace Sys2Proof.Machine

variable {n : Nat} {a b : Word}

/-- Integers congruent modulo 2^n wrap alike. -/
theorem wrap_congr {i j : Int} (h : i % ((2 ^ n : Nat) : Int) = j % ((2 ^ n : Nat) : Int)) : wrap n i = wrap n j := by
  rw [wrap, wrap, h]

theorem inSRange_iff {i : Int} :
    inSRange n i = true ↔ -((2 ^ (n - 1) : Nat) : Int) ≤ i ∧ i ≤ ((2 ^ (n - 1) : Nat) : Int) - 1 := by
  rw [inSRange, Bool.and_eq_true, decide_eq_true_iff, decide_eq_true_iff]

/-- A set Overflow flag says that the exact result is outside SRANGE(n). -/
theorem not_inSRange_iff {i : Int} :
    (!inSRange n i) = true ↔ ¬(-(2 : Int) ^ (n - 1) ≤ i ∧ i ≤ (2 : Int) ^ (n - 1) - 1) := by
  rw [Bool.not_eq_true', ← Bool.not_eq_true, inSRange_iff]
  push_cast
  rfl

/-- The sign bit of an n-bit value is the sign of its signed reading. -/
theorem signBit_iff_sgn_neg (hn : 1 ≤ n) (ha : a.toNat < 2 ^ n) : signBit n a = true ↔ sgn n a < 0 := by
  rw [signBit_iff_le hn ha]
  rcases Nat.lt_or_ge a.toNat (2 ^ (n - 1)) with hlt | hle
  · rw [sgn_of_lt hn hlt]
    omega
  · rw [sgn_of_le hn ha hle]
    omega

theorem signBit_eq_iff_sgn_neg (hn : 1 ≤ n) (ha : a.toNat < 2 ^ n) (hb : b.toNat < 2 ^ n) :
    signBit n a = signBit n b ↔ (sgn n a < 0 ↔ sgn n b < 0) := by
  rw [Bool.eq_iff_iff, signBit_iff_sgn_neg hn ha, signBit_iff_sgn_neg hn hb]

/-- An integer in [-2^n, 2^n) is in SRANGE(n) exactly when wrapping keeps its sign. -/
theorem inSRange_iff_signBit_wrap {i : Int} (hn : 1 ≤ n) (hn128 : n ≤ 128) (hlo : -((2 ^ n : Nat) : Int) ≤ i)
    (hhi : i < ((2 ^ n : Nat) : Int)) : inSRange n i = true ↔ (signBit n (wrap n i) = true ↔ i < 0) := by
  have hdouble : 2 ^ n = 2 * 2 ^ (n - 1) := (mul_pow_sub_one (by omega) 2).symm
  have hwrap := toNat_wrap hn128 i
  rw [signBit_iff_le hn (wrap_lt hn128 i), inSRange_iff]
  rcases lt_or_ge i 0 with hneg | hnonneg
  · rw [← Int.add_emod_right, Int.emod_eq_of_lt (by omega) (by omega)] at hwrap
    omega
  · rw [Int.emod_eq_of_lt hnonneg hhi] at hwrap
    omega

/-- Where the exact result has the sign of `a`, it overflows exactly when the wrapped result has not. -/
theorem not_inSRange_iff_signBit_ne {i : Int} (hn : 1 ≤ n) (hn128 : n ≤ 128) (hlo : -((2 ^ n : Nat) : Int) ≤ i)
    (hhi : i < ((2 ^ n : Nat) : Int)) (hsign : i < 0 ↔ signBit n a = true) :
    (!inSRange n i) = true ↔ signBit n (wrap n i) ≠ signBit n a := by
  rw [Bool.not_eq_true', ← Bool.not_eq_true, inSRange_iff_signBit_wrap hn hn128 hlo hhi, hsign, ← Bool.eq_iff_iff]

/-- ADD's result is the wrapped sum of the signed readings too. -/
theorem addResult_r_eq_wrap_sgn (hn : n ≤ 128) : (addResult n a b).r = wrap n (sgn n a + sgn n b) := by
  have hwrap : (addResult n a b).r = wrap n ((a.toNat : Int) + (b.toNat : Int)) := by
    apply BitVec.eq_of_toNat_eq
    zify
    rw [toNat_wrap hn, addResult, toNat_ofNat_mod hn]
    push_cast
    rfl
  rw [hwrap]
  exact wrap_congr (by rw [Int.add_emod, ← sgn_emod n a, ← sgn_emod n b, ← Int.add_emod])

/-- SUB's result is the wrapped difference of the signed readings too. -/
theorem subResult_r_eq_wrap_sgn : (subResult n a b).r = wrap n (sgn n a - sgn n b) :=
  wrap_congr (by rw [Int.sub_emod, ← sgn_emod n a, ← sgn_emod n b, ← Int.sub_emod])

/-- ADD overflows exactly when both operands have one sign and the result the other (rule R121). -/
theorem addResult_v_iff_signBit (hn : 1 ≤ n) (hn128 : n ≤ 128) (ha : a.toNat < 2 ^ n) (hb : b.toNat < 2 ^ n) :
    (addResult n a b).v = true ↔
      signBit n a = signBit n b ∧ signBit n (addResult n a b).r ≠ signBit n a := by
  have hdouble : 2 ^ n = 2 * 2 ^ (n - 1) := (mul_pow_sub_one (by omega) 2).symm
  obtain ⟨halo, hahi⟩ := sgn_mem_range hn ha
  obtain ⟨hblo, hbhi⟩ := sgn_mem_range hn hb
  rw [signBit_eq_iff_sgn_neg hn ha hb]
  by_cases hsame : sgn n a < 0 ↔ sgn n b < 0
  · have hsign : sgn n a + sgn n b < 0 ↔ signBit n a = true := by
      rw [signBit_iff_sgn_neg hn ha]
      omega
    rw [and_iff_right hsame, addResult_r_eq_wrap_sgn hn128]
    exact not_inSRange_iff_signBit_ne hn hn128 (by omega) (by omega) hsign
  · have hin : inSRange n (sgn n a + sgn n b) = true := inSRange_iff.mpr (by omega)
    exact iff_of_false (by simp [addResult, hin]) fun h => hsame h.1

/-- SUB overflows exactly when the operands have different signs and the result not the first one's (rule R122). -/
theorem subResult_v_iff_signBit (hn : 1 ≤ n) (hn128 : n ≤ 128) (ha : a.toNat < 2 ^ n) (hb : b.toNat < 2 ^ n) :
    (subResult n a b).v = true ↔
      signBit n a ≠ signBit n b ∧ signBit n (subResult n a b).r ≠ signBit n a := by
  have hdouble : 2 ^ n = 2 * 2 ^ (n - 1) := (mul_pow_sub_one (by omega) 2).symm
  obtain ⟨halo, hahi⟩ := sgn_mem_range hn ha
  obtain ⟨hblo, hbhi⟩ := sgn_mem_range hn hb
  rw [Ne, signBit_eq_iff_sgn_neg hn ha hb]
  by_cases hsame : sgn n a < 0 ↔ sgn n b < 0
  · have hin : inSRange n (sgn n a - sgn n b) = true := inSRange_iff.mpr (by omega)
    exact iff_of_false (by simp [subResult, hin]) fun h => h.1 hsame
  · have hsign : sgn n a - sgn n b < 0 ↔ signBit n a = true := by
      rw [signBit_iff_sgn_neg hn ha]
      omega
    rw [and_iff_right hsame, subResult_r_eq_wrap_sgn]
    exact not_inSRange_iff_signBit_ne hn hn128 (by omega) (by omega) hsign

end Sys2Proof.Machine
end

section
/-! ### The arithmetic commands (41_arithmetic.md)

ADD, SUB and MUL always complete with their F on X and Y, in the shape of rule R120; `exec_div_ok` and `exec_div_zero`
are DIV's two outcomes. -/

namespace Sys2Proof.Machine

variable (s : State)

theorem exec_add : exec .add s = .next (completed (applyArith s (addResult s.ws.toNat s.x s.y))) := rfl

theorem exec_sub : exec .sub s = .next (completed (applyArith s (subResult s.ws.toNat s.x s.y))) := rfl

theorem exec_mul : exec .mul s = .next (completed (applyArith s (mulResult s.ws.toNat s.x s.y))) := rfl

/-- What a completed arithmetic command leaves (rule R120). -/
theorem completed_applyArith (a : ArithResult) :
    completed (applyArith s a) =
      { s with x := a.r, y := s.z, z := s.t, c := a.c, v := a.v, r := false, err := 0, cmdDone := true } := rfl

/-- Settles O28: the sum and C are the definition of F, V's two readings `not_inSRange_iff` and
`addResult_v_iff_signBit`. -/
theorem addGivesExactSumAndFlags : Obligations.AddGivesExactSumAndFlags := by
  refine ⟨fun _ => rfl, ?_⟩
  rintro s ⟨hws, hws128⟩ ⟨hx, hy, _⟩
  exact ⟨_, _, _, (exec_add s).trans (congrArg _ (completed_applyArith s _)), toNat_ofNat_mod hws128 _,
    decide_eq_true_iff, not_inSRange_iff, addResult_v_iff_signBit hws hws128 hx hy⟩

/-- Settles O29: the difference is `toNat_wrap`, C the definition of F, V's two readings `not_inSRange_iff` and
`subResult_v_iff_signBit`. -/
theorem subGivesExactDifferenceAndFlags : Obligations.SubGivesExactDifferenceAndFlags := by
  refine ⟨fun _ => rfl, ?_⟩
  rintro s ⟨hws, hws128⟩ ⟨hx, hy, _⟩
  have hdiff := toNat_wrap hws128 ((s.x.toNat : Int) - (s.y.toNat : Int))
  push_cast at hdiff
  exact ⟨_, _, _, (exec_sub s).trans (congrArg _ (completed_applyArith s _)), hdiff,
    decide_eq_true_iff, not_inSRange_iff, subResult_v_iff_signBit hws hws128 hx hy⟩

/-- Settles O30: the product and C are the definition of F, V is `not_inSRange_iff`. -/
theorem mulGivesExactProductAndFlags : Obligations.MulGivesExactProductAndFlags := by
  refine ⟨fun _ => rfl, ?_⟩
  rintro s ⟨_, hws128⟩ _
  exact ⟨_, _, _, (exec_mul s).trans (congrArg _ (completed_applyArith s _)), toNat_ofNat_mod hws128 _,
    decide_eq_true_iff, not_inSRange_iff⟩

/-- Settles O31: DIV's two outcomes; the quotient is at most X, so it needs no narrowing. -/
theorem divGivesFloorQuotientOrError : Obligations.DivGivesFloorQuotientOrError := by
  refine ⟨fun _ => rfl, fun s => ⟨fun hy => ?_, exec_div_zero s⟩⟩
  have hle : s.x.toNat / s.y.toNat ≤ s.x.toNat := Nat.div_le_self _ _
  have hq : (BitVec.ofNat 128 (s.x.toNat / s.y.toNat)).toNat = s.x.toNat / s.y.toNat :=
    Nat.mod_eq_of_lt (hle.trans_lt s.x.isLt)
  exact ⟨_, (exec_div_ok s hy).trans (congrArg _ (completed_applyArith s _)), hq, hq.trans_le hle⟩

end Sys2Proof.Machine
end

section
/-! ### The bitwise commands (42_bitwise.md)

AND, OR and XOR of two values below 2^n stay below it, so their final mask changes nothing (rule R150). NOT's mask does:
it takes the complement within the word size (rule R154). -/

namespace Sys2Proof.Machine

variable {n : Nat} {v : Word} (s : State)

/-- The masked complement is MASK(n) minus the value (rule R154). -/
theorem maskTo_not (hn : n ≤ 128) (hv : v.toNat < 2 ^ n) : maskTo n (~~~v) = BitVec.ofNat 128 (2 ^ n - 1 - v.toNat) := by
  have hsucc : 2 ^ n - 1 - v.toNat = 2 ^ n - (v.toNat + 1) := by omega
  apply BitVec.eq_of_getLsbD_eq
  intro i hi
  rw [getLsbD_maskTo hn, BitVec.getLsbD_not, BitVec.getLsbD_ofNat, hsucc, Nat.testBit_two_pow_sub_succ hv,
    BitVec.testBit_toNat]
  simp [hi]

/-- To complement twice within the word size restores the value (rule R154). -/
theorem maskTo_not_maskTo_not (hn : n ≤ 128) (hv : v.toNat < 2 ^ n) : maskTo n (~~~maskTo n (~~~v)) = v := by
  have hbits : maskTo n (~~~maskTo n (~~~v)) = maskTo n v := by
    apply BitVec.eq_of_getLsbD_eq
    intro i hi
    simp only [getLsbD_maskTo hn, BitVec.getLsbD_not, hi, decide_true, Bool.true_and]
    cases decide (i < n) <;> simp
  exact hbits.trans (maskTo_eq_self hn hv)

/-- What a completed AND, OR or XOR leaves when the combination is below 2^ws (rule R150). -/
theorem completed_applyBitwise {g : Word} (hws : s.WsLegal) (hg : g.toNat < 2 ^ s.ws.toNat) :
    completed (applyBitwise g s) =
      { s with x := g, y := s.z, z := s.t, r := false, err := 0, cmdDone := true } := by
  rw [applyBitwise, maskTo_eq_self hws.2 hg]
  rfl

theorem exec_and : exec .and s = .next (completed (applyBitwise (s.x &&& s.y) s)) := rfl

theorem exec_or : exec .or s = .next (completed (applyBitwise (s.x ||| s.y) s)) := rfl

theorem exec_xor : exec .xor s = .next (completed (applyBitwise (s.x ^^^ s.y) s)) := rfl

theorem exec_not :
    exec .not s =
      .next { s with x := maskTo s.ws.toNat (~~~s.x), r := false, err := 0, cmdDone := true } := rfl

/-- Settles O35: the words by evaluating the decoder; each combination of two masked values is masked. -/
theorem andOrXorCombine : Obligations.AndOrXorCombine := by
  refine ⟨fun _ => ⟨rfl, rfl, rfl⟩, ?_⟩
  rintro s hws ⟨hx, hy, _⟩
  refine ⟨?_, ?_, ?_⟩
  · have hand : (s.x &&& s.y).toNat < 2 ^ s.ws.toNat := BitVec.toNat_and .. ▸ Nat.and_lt_two_pow _ hy
    rw [exec_and, completed_applyBitwise s hws hand]
  · have hor : (s.x ||| s.y).toNat < 2 ^ s.ws.toNat := BitVec.toNat_or .. ▸ Nat.or_lt_two_pow hx hy
    rw [exec_or, completed_applyBitwise s hws hor]
  · have hxor : (s.x ^^^ s.y).toNat < 2 ^ s.ws.toNat := BitVec.toNat_xor .. ▸ Nat.xor_lt_two_pow hx hy
    rw [exec_xor, completed_applyBitwise s hws hxor]

/-- Settles O36: one NOT is `maskTo_not`; two are its equation twice, at the word size that the first keeps, and
`maskTo_not_maskTo_not`. -/
theorem notComplementsWithinWordSize : Obligations.NotComplementsWithinWordSize := by
  refine ⟨fun _ => rfl, ?_⟩
  rintro s ⟨_, hws128⟩ ⟨hx, _⟩
  constructor
  · rw [exec_not, maskTo_not hws128 hx]
  · rw [execAll_cons_of_next (exec_not s), execAll_cons_of_next (exec_not _), maskTo_not_maskTo_not hws128 hx]
    rfl

end Sys2Proof.Machine
end

section
/-! ### The shift and rotate functions as arithmetic (rule R160)

Below 2^n a shift left is a multiplication modulo 2^n, a shift right a division, and an arithmetic shift right the
wrapped floor division of the signed reading, for every amount: the saturated values are what these formulas give from
`n` (`n - 1`) on. A rotation exchanges the two parts of a value that its amount cuts it into. -/

namespace Sys2Proof.Machine

variable {n j k : Nat} {x : Word}

/-! #### Logical shifts -/

/-- The bits that a shift left loses at 128 lie above the mask. -/
theorem toNat_shiftLeft_mod (hn : n ≤ 128) (x : Word) (k : Nat) :
    (x <<< k).toNat % 2 ^ n = (x.toNat <<< k) % 2 ^ n := by
  rw [BitVec.toNat_shiftLeft, Nat.mod_mod_of_dvd _ (Nat.pow_dvd_pow 2 hn)]

theorem shl_of_le (h : n ≤ k) : shl n x k = 0 := if_neg (Nat.not_lt.mpr h)

theorem shr_of_le (h : n ≤ k) : shr n x k = 0 := if_neg (Nat.not_lt.mpr h)

theorem toNat_shl (hn : n ≤ 128) (x : Word) (k : Nat) : (shl n x k).toNat = (x.toNat <<< k) % 2 ^ n := by
  rcases Nat.lt_or_ge k n with hlt | hle
  · rw [shl, if_pos hlt, toNat_maskTo hn, toNat_shiftLeft_mod hn]
  · have hdvd : 2 ^ n ∣ x.toNat <<< k := Nat.shiftLeft_eq .. ▸ (Nat.pow_dvd_pow 2 hle).mul_left _
    rw [shl_of_le hle, Nat.mod_eq_zero_of_dvd hdvd]
    rfl

theorem toNat_shr (hx : x.toNat < 2 ^ n) (k : Nat) : (shr n x k).toNat = x.toNat >>> k := by
  rcases Nat.lt_or_ge k n with hlt | hle
  · rw [shr, if_pos hlt, BitVec.toNat_ushiftRight]
  · have hzero : x.toNat / 2 ^ k = 0 := Nat.div_eq_of_lt (hx.trans_le (Nat.pow_le_pow_right (by decide) hle))
    rw [shr_of_le hle, Nat.shiftRight_eq_div_pow, hzero]
    rfl

/-! #### The arithmetic shift -/

/-- The signed reading divided by 2^(n-1) or more leaves its sign alone. -/
theorem sgn_ediv_of_le (hn : 1 ≤ n) (hx : x.toNat < 2 ^ n) (hk : n - 1 ≤ k) :
    sgn n x / ((2 ^ k : Nat) : Int) = if signBit n x then -1 else 0 := by
  have hpow : 2 ^ (n - 1) ≤ 2 ^ k := Nat.pow_le_pow_right (by decide) hk
  have hsign := signBit_iff_sgn_neg hn hx
  obtain ⟨hlo, hhi⟩ := sgn_mem_range hn hx
  split
  case isTrue h => exact Int.ediv_eq_neg_one_of_neg_of_le (hsign.mp h) (by omega)
  case isFalse h =>
    rw [hsign, Int.not_lt] at h
    exact Int.ediv_eq_zero_of_lt h (by omega)

/-- The wrapped -1 is the sign fill. -/
theorem wrap_neg_one (hn : n ≤ 128) : wrap n (-1) = mask n := by
  have hpos := Nat.two_pow_pos n
  have hmod : (-1 : Int) % ((2 ^ n : Nat) : Int) = ((2 ^ n : Nat) : Int) - 1 := by
    rw [← Int.add_emod_right, Int.emod_eq_of_lt (by omega) (by omega)]
    omega
  apply BitVec.eq_of_toNat_eq
  zify
  rw [toNat_wrap hn, hmod, mask_toNat hn]
  omega

theorem wrap_zero (n : Nat) : wrap n 0 = 0 := by
  rw [wrap, Int.zero_emod]
  rfl

theorem wrap_sgn_ediv_of_le (hn : 1 ≤ n) (hn128 : n ≤ 128) (hx : x.toNat < 2 ^ n) (hk : n - 1 ≤ k) :
    wrap n (sgn n x / ((2 ^ k : Nat) : Int)) = if signBit n x then mask n else 0 := by
  rw [sgn_ediv_of_le hn hx hk, apply_ite (wrap n), wrap_neg_one hn128, wrap_zero]

/-- The formula of `asr` holds from `n` on too, where the definition has the sign fill. -/
theorem asr_eq_wrap (hn : 1 ≤ n) (hn128 : n ≤ 128) (hx : x.toNat < 2 ^ n) (k : Nat) :
    asr n x k = wrap n (sgn n x / ((2 ^ k : Nat) : Int)) := by
  rcases Nat.lt_or_ge k n with hlt | hle
  · exact if_pos hlt
  · rw [asr, if_neg (Nat.not_lt.mpr hle), wrap_sgn_ediv_of_le hn hn128 hx (by omega)]

theorem toNat_asr (hn : 1 ≤ n) (hn128 : n ≤ 128) (hx : x.toNat < 2 ^ n) (k : Nat) :
    ((asr n x k).toNat : Int) = sgn n x / ((2 ^ k : Nat) : Int) % ((2 ^ n : Nat) : Int) := by
  rw [asr_eq_wrap hn hn128 hx, toNat_wrap hn128]

/-- The sign fill, from an amount of n - 1 on. -/
theorem asr_of_le (hn : 1 ≤ n) (hn128 : n ≤ 128) (hx : x.toNat < 2 ^ n) (hk : n - 1 ≤ k) :
    asr n x k = if x.getLsbD (n - 1) then mask n else 0 :=
  (asr_eq_wrap hn hn128 hx k).trans (wrap_sgn_ediv_of_le hn hn128 hx hk)

/-! #### Rotations -/

theorem toNat_maskTo_shiftLeft_or (hn : n ≤ 128) (x w : Word) (j : Nat) :
    (maskTo n (x <<< j ||| w)).toNat = (x.toNat <<< j ||| w.toNat) % 2 ^ n := by
  rw [toNat_maskTo hn, BitVec.toNat_or, Nat.or_mod_two_pow, toNat_shiftLeft_mod hn, ← Nat.or_mod_two_pow]

theorem toNat_rol (hn : n ≤ 128) (x : Word) (k : Nat) :
    (rol n x k).toNat = (x.toNat <<< (k % n) ||| x.toNat >>> (n - k % n)) % 2 ^ n := by
  rw [rol, toNat_maskTo_shiftLeft_or hn, BitVec.toNat_ushiftRight]

theorem toNat_ror (hn : n ≤ 128) (x : Word) (k : Nat) :
    (ror n x k).toNat = (x.toNat >>> (k % n) ||| x.toNat <<< (n - k % n)) % 2 ^ n := by
  rw [ror, BitVec.or_comm, toNat_maskTo_shiftLeft_or hn, BitVec.toNat_ushiftRight, Nat.or_comm]

/-- A rotation left by `j` puts the upper `j` bits below the other `n - j`. -/
theorem shiftLeft_or_shiftRight_mod {a : Nat} (ha : a < 2 ^ n) (hj : j ≤ n) :
    (a <<< j ||| a >>> (n - j)) % 2 ^ n = a % 2 ^ (n - j) * 2 ^ j + a / 2 ^ (n - j) := by
  have hpow : 2 ^ n = 2 ^ (n - j) * 2 ^ j := by rw [← Nat.pow_add, Nat.sub_add_cancel hj]
  have hupper : a / 2 ^ (n - j) < 2 ^ j := Nat.div_lt_of_lt_mul (hpow ▸ ha)
  have hlower : a % 2 ^ (n - j) + 1 ≤ 2 ^ (n - j) := Nat.mod_lt _ (Nat.two_pow_pos _)
  have hsum : a % 2 ^ (n - j) * 2 ^ j + a / 2 ^ (n - j) < 2 ^ n :=
    calc a % 2 ^ (n - j) * 2 ^ j + a / 2 ^ (n - j)
      _ < (a % 2 ^ (n - j) + 1) * 2 ^ j := by rw [Nat.succ_mul]; omega
      _ ≤ 2 ^ n := hpow ▸ Nat.mul_le_mul_right _ hlower
  have hmod : a * 2 ^ j % 2 ^ n = a % 2 ^ (n - j) * 2 ^ j := by rw [hpow, Nat.mul_mod_mul_right]
  calc (a <<< j ||| a >>> (n - j)) % 2 ^ n
    _ = (a * 2 ^ j + a / 2 ^ (n - j)) % 2 ^ n := by
      rw [Nat.shiftRight_eq_div_pow, ← Nat.shiftLeft_add_eq_or_of_lt hupper, Nat.shiftLeft_eq]
    _ = (a % 2 ^ (n - j) * 2 ^ j + a / 2 ^ (n - j)) % 2 ^ n := by rw [← Nat.mod_add_mod, hmod]
    _ = a % 2 ^ (n - j) * 2 ^ j + a / 2 ^ (n - j) := Nat.mod_eq_of_lt hsum

theorem toNat_rol_eq_add (hn : 1 ≤ n) (hn128 : n ≤ 128) (hx : x.toNat < 2 ^ n) (k : Nat) :
    (rol n x k).toNat = x.toNat % 2 ^ (n - k % n) * 2 ^ (k % n) + x.toNat / 2 ^ (n - k % n) := by
  rw [toNat_rol hn128, shiftLeft_or_shiftRight_mod hx (Nat.mod_lt k hn).le]

theorem toNat_ror_eq_add (hn : 1 ≤ n) (hn128 : n ≤ 128) (hx : x.toNat < 2 ^ n) (k : Nat) :
    (ror n x k).toNat = x.toNat % 2 ^ (k % n) * 2 ^ (n - k % n) + x.toNat / 2 ^ (k % n) := by
  have hsub : n - (n - k % n) = k % n := Nat.sub_sub_self (Nat.mod_lt k hn).le
  have h := shiftLeft_or_shiftRight_mod hx (Nat.sub_le n (k % n))
  rwa [hsub, Nat.or_comm, ← toNat_ror hn128] at h

/-- A rotation by a multiple of n is the identity (decision D18). -/
theorem rol_of_mod_eq_zero (hn : 1 ≤ n) (hn128 : n ≤ 128) (hx : x.toNat < 2 ^ n) (hk : k % n = 0) : rol n x k = x :=
  BitVec.eq_of_toNat_eq (by
    rw [toNat_rol_eq_add hn hn128 hx, hk, Nat.sub_zero, Nat.mod_eq_of_lt hx, Nat.div_eq_of_lt hx, pow_zero, mul_one,
      add_zero])

theorem ror_of_mod_eq_zero (hn : 1 ≤ n) (hn128 : n ≤ 128) (hx : x.toNat < 2 ^ n) (hk : k % n = 0) : ror n x k = x :=
  BitVec.eq_of_toNat_eq (by
    rw [toNat_ror_eq_add hn hn128 hx, hk, pow_zero, Nat.mod_one, zero_mul, Nat.div_one, zero_add])

/-- A rotation right is the rotation left by the rest of the word size (rule R172). -/
theorem ror_eq_rol (hn : 1 ≤ n) (hn128 : n ≤ 128) (hx : x.toNat < 2 ^ n) (k : Nat) :
    ror n x k = rol n x (n - k % n) := by
  rcases Nat.eq_zero_or_pos (k % n) with hzero | hpos
  · have hrest : (n - k % n) % n = 0 := by rw [hzero, Nat.sub_zero, Nat.mod_self]
    rw [ror_of_mod_eq_zero hn hn128 hx hzero, rol_of_mod_eq_zero hn hn128 hx hrest]
  · have hlt : k % n < n := Nat.mod_lt k hn
    rw [rol, ror, Nat.mod_eq_of_lt (by omega : n - k % n < n), Nat.sub_sub_self hlt.le, BitVec.or_comm]

/-- Settles O37: the two logical shifts are `toNat_shl` and `toNat_shr`, the arithmetic shift `toNat_asr` and
`asr_of_le`, the rotations `toNat_rol` and `toNat_ror`. -/
theorem shiftFunctionsMatchFormulas : Obligations.ShiftFunctionsMatchFormulas := by
  intro n x k hn hn128 hx
  have hasr := toNat_asr hn hn128 hx k
  push_cast at hasr
  simp only [Nat.and_two_pow_sub_one_eq_mod]
  exact ⟨toNat_shl hn128 x k, shl_of_le, toNat_shr hx k, shr_of_le, hasr, asr_of_le hn hn128 hx, toNat_rol hn128 x k,
    toNat_ror hn128 x k⟩

end Sys2Proof.Machine
end

section
/-! ### The shift and rotate commands (43_shift_rotate.md)

Each command completes with its function's value: the unary ones in place (rule R161), the binary ones dropping the
stack (rule R162). A move by one place is the function's formula at amount 1. -/

namespace Sys2Proof.Machine

variable {n : Nat} {x : Word} (s : State)

theorem exec_sl :
    exec .sl s = .next { s with x := shl s.ws.toNat s.x 1, r := false, err := 0, cmdDone := true } := rfl

theorem exec_sr :
    exec .sr s = .next { s with x := shr s.ws.toNat s.x 1, r := false, err := 0, cmdDone := true } := rfl

theorem exec_asr :
    exec .asr s = .next { s with x := asr s.ws.toNat s.x 1, r := false, err := 0, cmdDone := true } := rfl

theorem exec_rl :
    exec .rl s = .next { s with x := rol s.ws.toNat s.x 1, r := false, err := 0, cmdDone := true } := rfl

theorem exec_rr :
    exec .rr s = .next { s with x := ror s.ws.toNat s.x 1, r := false, err := 0, cmdDone := true } := rfl

theorem exec_sly :
    exec .sly s =
      .next { s with x := shl s.ws.toNat s.x s.y.toNat, y := s.z, z := s.t, r := false, err := 0, cmdDone := true } :=
  rfl

theorem exec_sry :
    exec .sry s =
      .next { s with x := shr s.ws.toNat s.x s.y.toNat, y := s.z, z := s.t, r := false, err := 0, cmdDone := true } :=
  rfl

theorem exec_asry :
    exec .asry s =
      .next { s with x := asr s.ws.toNat s.x s.y.toNat, y := s.z, z := s.t, r := false, err := 0, cmdDone := true } :=
  rfl

theorem exec_rly :
    exec .rly s =
      .next { s with x := rol s.ws.toNat s.x s.y.toNat, y := s.z, z := s.t, r := false, err := 0, cmdDone := true } :=
  rfl

theorem exec_rry :
    exec .rry s =
      .next { s with x := ror s.ws.toNat s.x s.y.toNat, y := s.z, z := s.t, r := false, err := 0, cmdDone := true } :=
  rfl

/-! #### Moves by one place -/

theorem toNat_shl_one (hn : n ≤ 128) (x : Word) : (shl n x 1).toNat = 2 * x.toNat % 2 ^ n := by
  rw [toNat_shl hn, Nat.shiftLeft_eq, pow_one, mul_comm]

theorem toNat_shr_one (hx : x.toNat < 2 ^ n) : (shr n x 1).toNat = x.toNat / 2 := by
  rw [toNat_shr hx, Nat.shiftRight_eq_div_pow, pow_one]

/-- The quotient by 2^(n-1) is the sign bit. -/
theorem div_two_pow_pred (hn : 1 ≤ n) (hx : x.toNat < 2 ^ n) :
    x.toNat / 2 ^ (n - 1) = if 2 ^ (n - 1) ≤ x.toNat then 1 else 0 := by
  have hdouble : 2 ^ n = 2 * 2 ^ (n - 1) := (mul_pow_sub_one (by omega) 2).symm
  split
  case isTrue h => exact Nat.div_eq_of_lt_le (by omega) (by omega)
  case isFalse h => exact Nat.div_eq_of_lt (by omega)

/-- An arithmetic shift by one keeps the sign bit in its place. -/
theorem toNat_asr_one (hn : 1 ≤ n) (hn128 : n ≤ 128) (hx : x.toNat < 2 ^ n) :
    (asr n x 1).toNat = x.toNat / 2 + x.toNat / 2 ^ (n - 1) * 2 ^ (n - 1) := by
  have hdouble : 2 ^ n = 2 * 2 ^ (n - 1) := (mul_pow_sub_one (by omega) 2).symm
  have hasr := toNat_asr hn hn128 hx 1
  rw [pow_one] at hasr
  rw [div_two_pow_pred hn hx]
  rcases Nat.lt_or_ge x.toNat (2 ^ (n - 1)) with hlt | hle
  · rw [sgn_of_lt hn hlt, Int.emod_eq_of_lt (by omega) (by omega)] at hasr
    rw [if_neg (Nat.not_le.mpr hlt)]
    omega
  · rw [sgn_of_le hn hx hle, ← Int.add_emod_right, Int.emod_eq_of_lt (by omega) (by omega)] at hasr
    rw [if_pos hle]
    omega

/-- A rotation left by one brings the top bit to bit 0. -/
theorem toNat_rol_one (hn : 1 ≤ n) (hn128 : n ≤ 128) (hx : x.toNat < 2 ^ n) :
    (rol n x 1).toNat = 2 * x.toNat % 2 ^ n + x.toNat / 2 ^ (n - 1) := by
  rcases hn.eq_or_lt with rfl | hlt
  · rw [rol_of_mod_eq_zero hn hn128 hx rfl]
    omega
  · have hdouble : 2 ^ n = 2 * 2 ^ (n - 1) := (mul_pow_sub_one (by omega) 2).symm
    rw [toNat_rol_eq_add hn hn128 hx, Nat.mod_eq_of_lt hlt, pow_one, hdouble, Nat.mul_mod_mul_left, mul_comm]

/-- A rotation right by one brings bit 0 to the top bit. -/
theorem toNat_ror_one (hn : 1 ≤ n) (hn128 : n ≤ 128) (hx : x.toNat < 2 ^ n) :
    (ror n x 1).toNat = x.toNat / 2 + x.toNat % 2 * 2 ^ (n - 1) := by
  rcases hn.eq_or_lt with rfl | hlt
  · rw [ror_of_mod_eq_zero hn hn128 hx rfl]
    omega
  · rw [toNat_ror_eq_add hn hn128 hx, Nat.mod_eq_of_lt hlt, pow_one, add_comm]

/-- Settles O38: the words by evaluating the decoder; each command's equation, and its function at amount 1. -/
theorem unaryShiftsMoveByOne : Obligations.UnaryShiftsMoveByOne := by
  refine ⟨fun _ => ⟨rfl, rfl, rfl, rfl, rfl⟩, ?_⟩
  rintro s ⟨hws, hws128⟩ ⟨hx, _⟩
  exact ⟨⟨_, exec_sl s, toNat_shl_one hws128 s.x⟩, ⟨_, exec_sr s, toNat_shr_one hx⟩,
    ⟨_, exec_asr s, toNat_asr_one hws hws128 hx⟩, ⟨_, exec_rl s, toNat_rol_one hws hws128 hx⟩,
    ⟨_, exec_rr s, toNat_ror_one hws hws128 hx⟩⟩

/-! #### Moves by Y -/

theorem shl_zero (hn : n ≤ 128) (hx : x.toNat < 2 ^ n) : shl n x 0 = x :=
  BitVec.eq_of_toNat_eq (by rw [toNat_shl hn, Nat.shiftLeft_zero, Nat.mod_eq_of_lt hx])

theorem shr_zero (hx : x.toNat < 2 ^ n) : shr n x 0 = x :=
  BitVec.eq_of_toNat_eq (by rw [toNat_shr hx, Nat.shiftRight_zero])

theorem asr_zero (hn : 1 ≤ n) (hn128 : n ≤ 128) (hx : x.toNat < 2 ^ n) : asr n x 0 = x := by
  rw [asr_eq_wrap hn hn128 hx, pow_zero, Nat.cast_one, Int.ediv_one, wrap_sgn hn128 hx]

/-- Settles O39: the words by evaluating the decoder, each command by its equation; then the functions at amounts of the
word size and more, at multiples of it, at 0, and the two rotations against each other. -/
theorem binaryShiftsMoveByY : Obligations.BinaryShiftsMoveByY := by
  refine ⟨fun _ => ⟨rfl, rfl, rfl, rfl, rfl⟩, ?_⟩
  rintro s ⟨hws, hws128⟩ ⟨hx, _⟩
  refine ⟨exec_sly s, exec_sry s, exec_asry s, exec_rly s, exec_rry s, ?saturated, ?multiple, ?zero, ?rest⟩
  case saturated =>
    intro hle
    exact ⟨shl_of_le hle, shr_of_le hle, asr_of_le hws hws128 hx (by omega)⟩
  case multiple =>
    intro hmod
    exact ⟨rol_of_mod_eq_zero hws hws128 hx hmod, ror_of_mod_eq_zero hws hws128 hx hmod⟩
  case zero =>
    intro hy
    rw [hy]
    exact ⟨shl_zero hws128 hx, shr_zero hx, asr_zero hws hws128 hx⟩
  case rest => exact ror_eq_rol hws hws128 hx _

end Sys2Proof.Machine
end

section
/-! ### Words of an opcode that uses ARG (rules R72, R74, R82)

Such a word with RSV 0 is legal whatever its ARG is, and its command carries that ARG. -/

namespace Sys2Proof

/-- A row of the configuration and memory commands, whose formats use ARG, gives every word of its OP with RSV 0 a
command. -/
theorem decode_packCmd_of_mem_opRowsArg {row : OpRow} (hrow : row ∈ opRowsArg) (arg : Field8) (data : Word) :
    decode (packCmd row.op arg) data = .ok (row.build arg data) := by
  have huses : ∀ row ∈ opRowsArg, row.format.usesArg = true := by decide
  have hmatch : packCmd row.op arg &&& row.mask = row.pattern :=
    OpRow.matches_iff.mpr ⟨opField_packCmd _ _, by simp [huses row hrow], rsvField_packCmd _ _⟩
  rw [decode_of_matches (List.mem_append_right _ hrow) hmatch, argField_packCmd]

end Sys2Proof
end

section
/-! ### The configuration commands (44_config.md)

SETWS n takes every register and slot modulo 2^n (rule R191). A value below 2^n is also below 2^m for any larger m, so a
SETWS that widens changes no value, and a SETWS that follows a narrower one changes none either (rules R192, R193). -/

namespace Sys2Proof.Machine

variable {m n : Nat} {w : Word}

theorem mem_bases_iff {arg : Field8} : arg ∈ Config.bases ↔ arg = 2 ∨ arg = 8 ∨ arg = 10 ∨ arg = 16 := by
  simp [Config.bases]

/-- Settles O41: the word is of the row of SETBASE, and the two outcomes are those of `BASES` containing ARG. -/
theorem setbaseWritesBaseOrError : Obligations.SetbaseWritesBaseOrError := by
  refine ⟨decode_packCmd_of_mem_opRowsArg (row := ⟨0x40, .a, fun arg _ => .setbase arg⟩) (by simp [opRowsArg]), ?_⟩
  intro arg s
  rw [← mem_bases_iff]
  exact ⟨exec_setbase_ok s, exec_setbase_error s⟩

@[simp] theorem slotRead_completed (i : Nat) (s : State) : slotRead i (completed s) = slotRead i s := rfl

/-- A slot after SETWS n, as arithmetic (rule R191). -/
theorem toNat_slotRead_setWordSize {n : Field8} {s : State} (hn : n.toNat ≤ 128) (hwf : Memory.wf s.mem = true)
    (i : Nat) : (slotRead i (setWordSize n s)).toNat = (slotRead i s).toNat % 2 ^ n.toNat := by
  rw [slotRead_setWordSize n hwf, toNat_maskTo hn]

/-- Settles O42: the word is of the row of SETWS, and to mask a value is to reduce it modulo 2^ARG. -/
theorem setwsMasksEverythingOrError : Obligations.SetwsMasksEverythingOrError := by
  refine ⟨decode_packCmd_of_mem_opRowsArg (row := ⟨0x41, .a, fun arg _ => .setws arg⟩) (by simp [opRowsArg]), ?_⟩
  refine fun arg s hwf => ⟨fun harg => ?_, exec_setws_error s⟩
  exact ⟨_, exec_setws_ok s harg, rfl, toNat_maskTo harg.2 s.x, toNat_maskTo harg.2 s.y, toNat_maskTo harg.2 s.z,
    toNat_maskTo harg.2 s.t, fun i _ => toNat_slotRead_setWordSize harg.2 hwf i⟩

/-- Masking to a larger size leaves a value of a smaller one (rule R193). -/
theorem maskTo_eq_self_of_le (hm : m ≤ 128) (hle : n ≤ m) (hw : w.toNat < 2 ^ n) : maskTo m w = w :=
  maskTo_eq_self hm (hw.trans_le (Nat.pow_le_pow_right (by decide) hle))

/-- What narrowing to n took away, a later widening to m does not bring back (rule R192). -/
theorem toNat_maskTo_maskTo_of_le (hm : m ≤ 128) (hle : n ≤ m) (w : Word) :
    (maskTo m (maskTo n w)).toNat = w.toNat % 2 ^ n := by
  have hn : n ≤ 128 := hle.trans hm
  rw [maskTo_eq_self_of_le hm hle (maskTo_lt hn w), toNat_maskTo hn]

/-- The signed reading at a larger size is the value itself (rule R193). -/
theorem sgn_eq_toNat_of_lt (hlt : n < m) (hw : w.toNat < 2 ^ n) : sgn m w = w.toNat :=
  sgn_of_lt (Nat.one_le_of_lt hlt) (hw.trans_le (Nat.pow_le_pow_right (by decide) (Nat.le_sub_one_of_lt hlt)))

/-- A slot after SETWS n and SETWS m (rule R191, twice). -/
theorem slotRead_setWordSize_setWordSize {n m : Field8} {s : State} (hwf : Memory.wf s.mem = true) (i : Nat) :
    slotRead i (setWordSize m (completed (setWordSize n s))) = maskTo m.toNat (maskTo n.toNat (slotRead i s)) := by
  have hwf' : Memory.wf (completed (setWordSize n s)).mem = true := Memory.remask_wf n.toNat hwf
  rw [slotRead_setWordSize m hwf', slotRead_completed, slotRead_setWordSize n hwf]

/-- Settles O43: SETWS n and SETWS m mask each value twice, which is the narrower mask; one SETWS that widens masks values
that are below 2^WS, and leaves them. -/
theorem narrowingLosesWideningKeeps : Obligations.NarrowingLosesWideningKeeps := by
  constructor
  · intro n m s hwf hn hle hm
    have hmasked := toNat_maskTo_maskTo_of_le hm hle
    refine ⟨completed (setWordSize m (completed (setWordSize n s))), ?run, rfl, hmasked s.x, hmasked s.y, hmasked s.z,
      hmasked s.t, ?slots⟩
    case run =>
      rw [execAll_cons_of_next (exec_setws_ok s ⟨hn, hle.trans hm⟩),
        execAll_cons_of_next (exec_setws_ok _ ⟨hn.trans hle, hm⟩), execAll]
    case slots =>
      intro i _
      rw [slotRead_completed, slotRead_setWordSize_setWordSize hwf, hmasked]
  · rintro m s ⟨⟨hws, _⟩, _, _, ⟨hx, hy, hz, ht⟩, hslots, hwf⟩ hle hm
    have hkept {w : Word} (hw : w.toNat < 2 ^ s.ws.toNat) : maskTo m.toNat w = w := maskTo_eq_self_of_le hm hle hw
    refine ⟨_, exec_setws_ok s ⟨hws.trans hle, hm⟩, rfl, hkept hx, hkept hy, hkept hz, hkept ht, ?slots, ?signed⟩
    case slots =>
      intro i hi
      rw [slotRead_completed, slotRead_setWordSize m hwf, hkept (hslots i hi)]
    case signed => exact fun hlt v => sgn_eq_toNat_of_lt hlt

end Sys2Proof.Machine
end

section
/-! ### The memory commands (45_memory_ops.md)

An index above 15 is the error alone (rule R200). STO and STOV write the masked value into the slot ARG names and complete
(rules R201, R202); RCL pushes the slot's value (rule R203). -/

namespace Sys2Proof.Machine

variable {arg : Field8} {s : State}

/-- Settles O45: each command's equation for an index that names no slot, and `raiseError` writes ERR and CMD_DONE
alone. -/
theorem indexAboveFifteenIsAnError : Obligations.IndexAboveFifteenIsAnError :=
  fun _ data s harg => ⟨exec_sto_error s harg, exec_stov_error s data harg, exec_rcl_error s harg⟩

/-- In a masked state X is below 2^ws already, so masking it again changes nothing (rules R21, R201). -/
theorem maskTo_x (hws : s.WsLegal) (hmasked : s.StackMasked) : maskTo s.ws.toNat s.x = s.x := by
  obtain ⟨_, hws128⟩ := hws
  obtain ⟨hx, _⟩ := hmasked
  exact maskTo_eq_self hws128 hx

/-- Settles O46: the word is of the row of STO; SlotWrite stores the masked X, which is X, and spares the other slots. -/
theorem stoStoresX : Obligations.StoStoresX := by
  refine ⟨decode_packCmd_of_mem_opRowsArg (row := ⟨0x50, .a, fun arg _ => .sto arg⟩) (by simp [opRowsArg]),
    fun _ s => exec_sto_error s, ?_⟩
  intro arg s harg hws hmasked hwf
  have hrun := exec_sto_ok s (Nat.lt_succ_of_le harg)
  rw [maskTo_x hws hmasked] at hrun
  exact ⟨_, hrun, rfl, slotRead_slotWrite_same s.x hwf, fun _ hk => slotRead_slotWrite_other s s.x hk⟩

/-- Settles O47: the word is of the row of STOV; SlotWrite stores the masked DATA, and to mask is to reduce modulo 2^ws. -/
theorem stovStoresMaskedData : Obligations.StovStoresMaskedData := by
  refine ⟨decode_packCmd_of_mem_opRowsArg (row := ⟨0x51, .ad, fun arg data => .stov arg data⟩) (by simp [opRowsArg]),
    fun _ data s => exec_stov_error s data, ?_⟩
  rintro arg data s harg ⟨_, hws128⟩ hwf
  refine ⟨_, exec_stov_ok s data (Nat.lt_succ_of_le harg), rfl, ?stored, fun _ hk => slotRead_slotWrite_other s _ hk⟩
  case stored => rw [slotRead_completed, slotRead_slotWrite_same _ hwf, toNat_maskTo hws128]

/-- Without the mark RCL lifts the stack and puts the slot's value into X (rules R100, R203). -/
theorem exec_rcl_of_no_mark (harg : arg.toNat < 16) (hr : s.r = false) :
    exec (.rcl arg) s =
      .next { s with
        x := slotRead arg.toNat s, y := s.x, z := s.y, t := s.z, r := false, err := 0, cmdDone := true } := by
  rw [exec_rcl_ok s harg, pushval_of_no_mark _ hr]
  rfl

/-- Under the mark RCL replaces X alone by the slot's value (rules R100, R203). -/
theorem exec_rcl_of_mark (harg : arg.toNat < 16) (hr : s.r = true) :
    exec (.rcl arg) s = .next { s with x := slotRead arg.toNat s, r := false, err := 0, cmdDone := true } := by
  rw [exec_rcl_ok s harg, pushval_of_mark _ hr]
  rfl

/-- Settles O48: the word is of the row of RCL; the error, and the push primitive's two branches on the slot's value. -/
theorem rclPushesSlot : Obligations.RclPushesSlot := by
  refine ⟨decode_packCmd_of_mem_opRowsArg (row := ⟨0x52, .a, fun arg _ => .rcl arg⟩) (by simp [opRowsArg]), ?_⟩
  intro arg s
  exact ⟨exec_rcl_error s, fun harg => exec_rcl_of_no_mark (Nat.lt_succ_of_le harg),
    fun harg => exec_rcl_of_mark (Nat.lt_succ_of_le harg)⟩

end Sys2Proof.Machine
end

section
/-! ### The cause of every error code (rules R221, R222, R224)

A word is illegal exactly when it fails the reserved-field check. A legal command makes at most one check, that of its
own operand; the check fails exactly on the cause that rule R221 gives its code, and `raiseError` writes that code. -/

namespace Sys2Proof

/-- An opcode with ARG stands in a row whose format uses ARG. -/
theorem usesArg_of_mem_opsWithArg : ∀ row ∈ opTable, row.op ∈ opsWithArg → row.format.usesArg = true := by
  decide

/-- The reserved-field check, as a condition on the three fields (rules R75, R77). -/
theorem wordWellFormed_iff {cmd : CmdWord} :
    wordWellFormed cmd = true ↔
      rsvField cmd = 0 ∧ (opField cmd ∈ opsWithoutArg ∧ argField cmd = 0 ∨ opField cmd ∈ opsWithArg) := by
  simp only [wordWellFormed, Bool.and_eq_true, Bool.or_eq_true, beq_iff_eq, List.contains_iff_mem,
    opField, argField, rsvField, BitVec.ofNat_eq_ofNat]

/-- The words that pass the reserved-field check are those that match a row of the table (rules R75, R77, R82). -/
theorem wordWellFormed_iff_matches {cmd : CmdWord} :
    wordWellFormed cmd = true ↔ ∃ row ∈ opTable, cmd &&& row.mask = row.pattern := by
  simp only [wordWellFormed_iff, OpRow.matches_iff]
  constructor
  · rintro ⟨hrsv, hfields⟩
    have hmem : opField cmd ∈ opTable.map OpRow.op :=
      List.mem_append.mpr (hfields.imp_left And.left)
    obtain ⟨row, hrow, hop⟩ := List.mem_map.mp hmem
    refine ⟨row, hrow, hop.symm, fun hunused => ?_, hrsv⟩
    rcases hfields with ⟨_, harg⟩ | hwith
    · exact harg
    · rw [usesArg_of_mem_opsWithArg row hrow (hop ▸ hwith)] at hunused
      cases hunused
  · rintro ⟨row, hrow, hop, harg, hrsv⟩
    have hmem : row.op ∈ opsWithoutArg ++ opsWithArg := opTable_map_op ▸ List.mem_map_of_mem hrow
    rw [hop]
    exact ⟨hrsv, (List.mem_append.mp hmem).imp_left fun hwithout =>
      ⟨hwithout, harg (usesArg_of_mem_opsWithoutArg row hrow hwithout)⟩⟩

/-- A word that decodes is well formed. -/
theorem wordWellFormed_of_decode_ok {cmd : CmdWord} {data : Word} {i : Instr} (h : decode cmd data = .ok i) :
    wordWellFormed cmd = true := by
  rcases decode_cases cmd with ⟨row, hrow, hm, _⟩ | ⟨_, e, herror⟩
  · exact wordWellFormed_iff_matches.mpr ⟨row, hrow, hm⟩
  · cases h.symm.trans (herror data)

/-- A word that does not decode is not well formed. -/
theorem wordWellFormed_of_decode_error {cmd : CmdWord} {data : Word} {e : DecodeError}
    (h : decode cmd data = .error e) : wordWellFormed cmd = false := by
  refine Bool.eq_false_iff.mpr fun hwf => ?_
  obtain ⟨row, hrow, hm⟩ := wordWellFormed_iff_matches.mp hwf
  cases h.symm.trans (decode_of_matches hrow hm data)

end Sys2Proof

namespace Sys2Proof.Machine

/-- The cause of an error in a legal command, kind by kind (rule R221); an illegal word is no command. -/
def ErrorKind.RaisedBy (k : ErrorKind) (i : Instr) (s : State) : Prop :=
  match k with
  | .divideByZero => i = .div ∧ s.y = 0
  | .invalidMemoryIndex => ∃ a, 15 < a.toNat ∧ (i = .sto a ∨ i = .rcl a ∨ ∃ d, i = .stov a d)
  | .invalidWordSize => ∃ n, i = .setws n ∧ (n = 0 ∨ 128 < n.toNat)
  | .invalidBase => ∃ b, i = .setbase b ∧ b ≠ 2 ∧ b ≠ 8 ∧ b ≠ 10 ∧ b ≠ 16
  | .illegalCommand => False

variable {i : Instr} {s t : State} {k k' : ErrorKind}

/-- Distinct kinds have distinct codes (rule R221). -/
theorem code_injective (h : k.code = k'.code) : k = k' := by
  cases k <;> cases k' <;> simp [ErrorKind.code] at h ⊢

/-- An ARG is no word size exactly when it is 0 or above 128 (rule R191). -/
theorem not_wordSize_iff {n : Field8} : ¬(1 ≤ n.toNat ∧ n.toNat ≤ 128) ↔ n = 0 ∨ 128 < n.toNat := by
  bv_omega

/-- An ARG is no base exactly when it is none of the four (rule R190). -/
theorem not_mem_bases_iff {b : Field8} : b ∉ Config.bases ↔ b ≠ 2 ∧ b ≠ 8 ∧ b ≠ 10 ∧ b ≠ 16 := by
  simp only [mem_bases_iff, not_or, ne_eq]

/-- Every command answers a next state (rule R222). -/
theorem exec_answers (i : Instr) (s : State) : ∃ t, exec i s = .next t := by
  by_cases hi : i = .enter
  · exact ⟨_, hi ▸ exec_enter s⟩
  · obtain ⟨o, ho⟩ := exec_eq_commit hi s
    exact ho ▸ commit_answers s o

/-- A word that decodes is executed as its command (rule R224). -/
theorem executeCommand_of_ok {cmd : CmdWord} {data : Word} (h : decode cmd data = .ok i) (s : State) :
    executeCommand cmd data s = exec i s := by
  rw [executeCommand, h]

/-- A command given the cause of an error raises it (rules R124, R190, R191, R200). -/
theorem exec_of_raisedBy (h : k.RaisedBy i s) : exec i s = .next (raiseError k s) := by
  cases k with
  | divideByZero =>
    obtain ⟨rfl, hy⟩ := h
    exact exec_div_zero s hy
  | invalidMemoryIndex =>
    obtain ⟨a, ha, rfl | rfl | ⟨d, rfl⟩⟩ := h
    · exact exec_sto_error s ha
    · exact exec_rcl_error s ha
    · exact exec_stov_error s d ha
  | invalidWordSize =>
    obtain ⟨n, rfl, hn⟩ := h
    exact exec_setws_error s (not_wordSize_iff.mpr hn)
  | invalidBase =>
    obtain ⟨b, rfl, hb⟩ := h
    exact exec_setbase_error s (not_mem_bases_iff.mpr hb)
  | illegalCommand => exact h.elim

/-- A completed command has left ERR 0 (rule R29). -/
theorem err_eq_zero_of_exec_completed {s' : State} (hexec : exec i s = .next (completed s'))
    (h : exec i s = .next t) : t.err = 0 := by
  obtain rfl := Host.Outcome.next.inj (h.symm.trans hexec)
  exact completed_err s'

/-- A command given the cause of no error completes with ERR 0: its one check, if it has any, passes (rule R222). -/
theorem exec_err_eq_zero_of_not_raisedBy (hnone : ∀ k : ErrorKind, ¬k.RaisedBy i s) (h : exec i s = .next t) :
    t.err = 0 := by
  have hindex {a : Field8} (hi : i = .sto a ∨ i = .rcl a ∨ ∃ d, i = .stov a d) : a.toNat < 16 :=
    Nat.lt_of_not_le fun ha => hnone .invalidMemoryIndex ⟨a, ha, hi⟩
  cases i with
  | div =>
    have hy : s.y ≠ 0 := fun hy => hnone .divideByZero ⟨rfl, hy⟩
    exact err_eq_zero_of_exec_completed (exec_div_ok s hy) h
  | setbase b =>
    have hb : b ∈ Config.bases := by_contra fun hb => hnone .invalidBase ⟨b, rfl, not_mem_bases_iff.mp hb⟩
    exact err_eq_zero_of_exec_completed (exec_setbase_ok s hb) h
  | setws n =>
    have hn : 1 ≤ n.toNat ∧ n.toNat ≤ 128 :=
      by_contra fun hn => hnone .invalidWordSize ⟨n, rfl, not_wordSize_iff.mp hn⟩
    exact err_eq_zero_of_exec_completed (exec_setws_ok s hn) h
  | sto a => exact err_eq_zero_of_exec_completed (exec_sto_ok s (hindex (.inl rfl))) h
  | rcl a => exact err_eq_zero_of_exec_completed (exec_rcl_ok s (hindex (.inr (.inl rfl)))) h
  | stov a d => exact err_eq_zero_of_exec_completed (exec_stov_ok s d (hindex (.inr (.inr ⟨d, rfl⟩)))) h
  | enter =>
    obtain rfl := Host.Outcome.next.inj h
    rfl
  | _ => exact err_eq_zero_of_exec_completed rfl h

/-- A command leaves the code of a kind exactly when it was given that kind's cause (rules R221, R222). -/
theorem exec_next_err_eq_code_iff (h : exec i s = .next t) : t.err = k.code ↔ k.RaisedBy i s := by
  constructor
  · intro herr
    by_cases hnone : ∀ k : ErrorKind, ¬k.RaisedBy i s
    · have hzero := exec_err_eq_zero_of_not_raisedBy hnone h
      exact absurd (herr.symm.trans hzero) (code_range k).1
    · obtain ⟨k', hk'⟩ := not_forall_not.mp hnone
      obtain rfl := Host.Outcome.next.inj (h.symm.trans (exec_of_raisedBy hk'))
      exact code_injective herr ▸ hk'
  · intro hk
    obtain rfl := Host.Outcome.next.inj (h.symm.trans (exec_of_raisedBy hk))
    rfl

/-- A command leaves ERR 0 or the code of an error (rule R221). -/
theorem exec_next_err_le (h : exec i s = .next t) : t.err.toNat ≤ 5 := by
  by_cases herr : t.err = 0
  · rw [herr]
    decide
  · obtain ⟨k, rfl⟩ := exec_next_of_err_ne_zero h herr
    exact (code_range k).2

/-- Settles O16: an illegal word raises IllegalCommand, and no other check is made; a word that decodes leaves the code
of a kind exactly when its command has that kind's cause, and no command has the cause of IllegalCommand. -/
theorem errCodesExactlyWhenRaised : Obligations.ErrCodesExactlyWhenRaised := by
  intro cmd data s
  cases hdec : decode cmd data with
  | error e =>
    have hwf := wordWellFormed_of_decode_error hdec
    exact ⟨_, executeCommand_of_error hdec s, (code_range .illegalCommand).2, iff_of_true rfl hwf, nofun⟩
  | ok i =>
    have hwf := wordWellFormed_of_decode_ok hdec
    obtain ⟨t, ht⟩ := exec_answers i s
    have hcode (k : ErrorKind) : t.err = k.code ↔ k.RaisedBy i s := exec_next_err_eq_code_iff ht
    have hlegal : t.err ≠ 5 := (hcode .illegalCommand).mp
    refine ⟨t, ?run, exec_next_err_le ht, iff_of_false hlegal (by simp [hwf]), ?causes⟩
    case run => rw [executeCommand_of_ok hdec, ht]
    case causes =>
      rintro _ ⟨⟩
      exact ⟨ht, hcode .divideByZero, hcode .invalidMemoryIndex, hcode .invalidWordSize, hcode .invalidBase⟩

end Sys2Proof.Machine
end

section
/-! ### The encoder against the opcode map (rules R71, R74, R80)

The encoder is written apart from the table. What a row builds is encoded as the word of that row, so a word that
decodes is the encoding of its command. -/

namespace Sys2Proof

/-- The word of a row, with ARG 0 where the format does not use it, decodes to that row's command. -/
theorem decode_packCmd_of_mem_opTable {row : OpRow} {arg : Field8} (hrow : row ∈ opTable)
    (harg : row.format.usesArg = false → arg = 0) (data : Word) :
    decode (packCmd row.op arg) data = .ok (row.build arg data) := by
  have hmatch : packCmd row.op arg &&& row.mask = row.pattern :=
    OpRow.matches_iff.mpr ⟨opField_packCmd _ _, by simpa using harg, rsvField_packCmd _ _⟩
  rw [decode_of_matches hrow hmatch, argField_packCmd]

/-- Settles O1: a command without operands is encoded as one fixed word, on which the decoder is evaluated; one with
operands as the word of its row with its ARG. -/
theorem encodeThenDecodeReturnsInstr : Obligations.EncodeThenDecodeReturnsInstr := by
  intro i
  cases i with
  | push data =>
    exact decode_packCmd_of_mem_opTable (row := ⟨0x01, .d, fun _ data => .push data⟩) (.head _) (fun _ => rfl) data
  | setbase arg =>
    exact decode_packCmd_of_mem_opRowsArg (row := ⟨0x40, .a, fun arg _ => .setbase arg⟩) (by simp [opRowsArg]) arg 0
  | setws arg =>
    exact decode_packCmd_of_mem_opRowsArg (row := ⟨0x41, .a, fun arg _ => .setws arg⟩) (by simp [opRowsArg]) arg 0
  | sto arg =>
    exact decode_packCmd_of_mem_opRowsArg (row := ⟨0x50, .a, fun arg _ => .sto arg⟩) (by simp [opRowsArg]) arg 0
  | stov arg data =>
    exact decode_packCmd_of_mem_opRowsArg (row := ⟨0x51, .ad, fun arg data => .stov arg data⟩) (by simp [opRowsArg])
      arg data
  | rcl arg =>
    exact decode_packCmd_of_mem_opRowsArg (row := ⟨0x52, .a, fun arg _ => .rcl arg⟩) (by simp [opRowsArg]) arg 0
  | _ => rfl

/-- The command a row builds is encoded as the word of that row, with DATA for PUSH and STOV and 0 for the others. -/
theorem encode_build (arg : Field8) (data : Word) :
    ∀ row ∈ opTable, (row.format.usesArg = false → arg = 0) →
      encode (row.build arg data) = ⟨packCmd row.op arg, if row.op = 0x01 ∨ row.op = 0x51 then data else 0⟩ := by
  simp +contextual [opTable, opRowsStack, opRowsArith, opRowsBitwise, opRowsUnary, opRowsBinary, opRowsArg, rowN,
    Format.usesArg, encode, packN]

/-- Settles O2: the word matches the row its command is built from, and that row's word is put together from the fields
of the word itself. -/
theorem decodeThenEncodeReturnsWord : Obligations.DecodeThenEncodeReturnsWord := by
  intro cmd data i h
  rcases decode_cases cmd with ⟨row, hrow, hm, hdec⟩ | ⟨_, e, herror⟩
  · obtain ⟨hop, harg, hrsv⟩ := OpRow.matches_iff.mp hm
    obtain rfl := Except.ok.inj ((hdec data).symm.trans h)
    rw [encode_build _ data row hrow harg, ← hop]
    exact ⟨packCmd_fields hrsv, rfl⟩
  · cases h.symm.trans (herror data)

/-- Settles O4: a well-formed word matches a row of the table, and that row gives its command. -/
theorem wellFormedWordsAreTheDecodable : Obligations.WellFormedWordsAreTheDecodable := by
  intro cmd data
  constructor
  · intro hwf
    obtain ⟨row, hrow, hm⟩ := wordWellFormed_iff_matches.mp hwf
    exact ⟨_, decode_of_matches hrow hm data⟩
  · rintro ⟨i, h⟩
    exact wordWellFormed_of_decode_ok h

/-- Settles O7: closed facts about ten fixed words, each decoded by evaluation. -/
theorem opcodeWordsDecode : Obligations.OpcodeWordsDecode := by
  unfold Obligations.OpcodeWordsDecode
  decide

end Sys2Proof
end

section
/-! ### The arithmetic results within the word size (rules R7, R120 to R124) -/

namespace Sys2Proof.Machine

variable {n : Nat}

theorem addResult_r_lt (hn : n ≤ 128) (a b : Word) : (addResult n a b).r.toNat < 2 ^ n := by
  rw [addResult_r_eq_wrap_sgn hn]
  exact wrap_lt hn _

theorem subResult_r_lt (hn : n ≤ 128) (a b : Word) : (subResult n a b).r.toNat < 2 ^ n := wrap_lt hn _

theorem mulResult_r_lt (hn : n ≤ 128) (a b : Word) : (mulResult n a b).r.toNat < 2 ^ n :=
  (toNat_ofNat_mod hn _).trans_lt (Nat.mod_lt _ (Nat.two_pow_pos n))

/-- The quotient is at most the dividend, so it is masked where the dividend is. -/
theorem divResult_r_lt {a b : Word} (ha : a.toNat < 2 ^ n) {q : ArithResult} (h : divResult a b = .ok q) :
    q.r.toNat < 2 ^ n := by
  rcases divResult_cases a b with ⟨_, hq⟩ | ⟨_, hq⟩
  · obtain rfl := Except.ok.inj (hq.symm.trans h)
    exact ((Nat.mod_le _ _).trans (Nat.div_le_self _ _)).trans_lt ha
  · cases hq.symm.trans h

end Sys2Proof.Machine
end

section
/-! ### What keeps a state legal (rules R21, R23, R24, R221)

Each operation over the state keeps the invariant, given that what it writes is within the word size, a legal word size
or a legal base. A command is a composition of them, so it keeps the invariant, and so does a step. -/

namespace Sys2Proof.Machine

variable {s t : State} {w : Word}

theorem inv_reset : State.reset.Inv := by decide

theorem wsLegal_of_inv (h : s.Inv) : s.WsLegal := h.1

theorem stackMasked_of_inv (h : s.Inv) : s.StackMasked := by
  obtain ⟨_, _, _, hstack, _⟩ := h
  exact hstack

theorem slotsMasked_of_inv (h : s.Inv) : s.SlotsMasked := by
  obtain ⟨_, _, _, _, hslots, _⟩ := h
  exact hslots

theorem memory_wf_of_inv (h : s.Inv) : Memory.wf s.mem = true := by
  obtain ⟨_, _, _, _, _, hwf⟩ := h
  exact hwf

/-! #### The operations -/

/-- The stack may be given any registers that are masked. -/
theorem inv_withStack {x y z u : Word} (h : s.Inv) (hx : x.toNat < 2 ^ s.ws.toNat) (hy : y.toNat < 2 ^ s.ws.toNat)
    (hz : z.toNat < 2 ^ s.ws.toNat) (hu : u.toNat < 2 ^ s.ws.toNat) :
    ({ s with x := x, y := y, z := z, t := u } : State).Inv := by
  obtain ⟨hws, hbase, herr, _, hslots, hwf⟩ := h
  exact ⟨hws, hbase, herr, ⟨hx, hy, hz, hu⟩, hslots, hwf⟩

theorem inv_setX (h : s.Inv) (hw : w.toNat < 2 ^ s.ws.toNat) : (setX w s).Inv := by
  obtain ⟨_, hy, hz, ht⟩ := stackMasked_of_inv h
  exact inv_withStack h hw hy hz ht

theorem inv_lift (h : s.Inv) : (lift s).Inv := by
  obtain ⟨hx, hy, hz, _⟩ := stackMasked_of_inv h
  exact inv_withStack h hx hx hy hz

theorem inv_replaceTop (h : s.Inv) (hw : w.toNat < 2 ^ s.ws.toNat) : (replaceTop w s).Inv := by
  obtain ⟨_, _, hz, ht⟩ := stackMasked_of_inv h
  exact inv_withStack (s := s) h hw hz ht ht

theorem inv_pushval (h : s.Inv) (hw : w.toNat < 2 ^ s.ws.toNat) : (pushval w s).Inv := by
  rcases pushval_cases w s with ⟨_, hpush⟩ | ⟨_, hpush⟩
  · rw [hpush]
    exact inv_setX (inv_lift h) hw
  · rw [hpush]
    exact inv_setX h hw

theorem inv_applyArith {a : ArithResult} (h : s.Inv) (ha : a.r.toNat < 2 ^ s.ws.toNat) : (applyArith s a).Inv :=
  inv_replaceTop h ha

theorem inv_applyBitwise (h : s.Inv) (g : Word) : (applyBitwise g s).Inv :=
  inv_replaceTop h (maskTo_lt (wsLegal_of_inv h).2 g)

theorem inv_setBase {b : Field8} (h : s.Inv) (hb : b ∈ Config.bases) : (setBase b s).Inv := by
  obtain ⟨hws, _, hrest⟩ := h
  exact ⟨hws, hb, hrest⟩

/-- SETWS masks the four registers and every slot to the size it writes (rule R191). -/
theorem inv_setWordSize {n : Field8} (h : s.Inv) (hn : 1 ≤ n.toNat ∧ n.toNat ≤ 128) : (setWordSize n s).Inv := by
  obtain ⟨_, hbase, herr, _, _, hwf⟩ := h
  have hslots (i : Nat) : (slotRead i (setWordSize n s)).toNat < 2 ^ n.toNat := by
    rw [slotRead_setWordSize n hwf]
    exact maskTo_lt hn.2 _
  exact ⟨hn, hbase, herr, ⟨maskTo_lt hn.2 _, maskTo_lt hn.2 _, maskTo_lt hn.2 _, maskTo_lt hn.2 _⟩,
    fun i _ => hslots i, Memory.remask_wf n.toNat hwf⟩

theorem inv_slotWrite {i : Nat} (h : s.Inv) (hi : i < 16) (hw : w.toNat < 2 ^ s.ws.toNat) : (slotWrite i w s).Inv := by
  obtain ⟨hws, hbase, herr, hstack, hslots, hwf⟩ := h
  refine ⟨hws, hbase, herr, hstack, fun k hk => ?_, Memory.write_wf w hi hwf⟩
  by_cases hki : k = i
  · rw [hki, slotRead_slotWrite_same w hwf]
    exact hw
  · rw [slotRead_slotWrite_other s w hki]
    exact hslots k hk

theorem inv_completed (h : s.Inv) : (completed s).Inv := by
  obtain ⟨hws, hbase, _, hrest⟩ := h
  exact ⟨hws, hbase, Nat.zero_le 5, hrest⟩

theorem inv_raiseError (h : s.Inv) (k : ErrorKind) : (raiseError k s).Inv := by
  obtain ⟨hws, hbase, _, hrest⟩ := h
  exact ⟨hws, hbase, (code_range k).2, hrest⟩

/-! #### The commands and the step -/

/-- A command that makes no check keeps the invariant when its effect has it. -/
theorem commit_ok_next_inv (s : State) {s' : State} (hs' : s'.Inv) (h : commit s (.ok s') = .next t) : t.Inv := by
  obtain rfl := Host.Outcome.next.inj h
  exact inv_completed hs'

/-- A command that makes a check keeps the invariant when its effect, with an operand that passes, has it. -/
theorem commit_map_next_inv {α : Type} {e : Except ErrorKind α} {f : α → State} (hs : s.Inv)
    (hf : ∀ a, e = .ok a → (f a).Inv) (h : commit s (e.map f) = .next t) : t.Inv := by
  cases e with
  | ok a => exact commit_ok_next_inv s (hf a rfl) h
  | error k =>
    obtain rfl := Host.Outcome.next.inj h
    exact inv_raiseError hs k

theorem slotOperand_eq_ok {arg : Field8} {i : Nat} (h : slotOperand arg = .ok i) : i < 16 := by
  rcases slotOperand_cases arg with ⟨hlt, harg⟩ | ⟨_, harg⟩
  · exact Except.ok.inj (harg.symm.trans h) ▸ hlt
  · cases harg.symm.trans h

theorem wordSizeOperand_eq_ok {arg n : Field8} (h : wordSizeOperand arg = .ok n) :
    1 ≤ n.toNat ∧ n.toNat ≤ 128 := by
  rcases wordSizeOperand_cases arg with ⟨hlegal, harg⟩ | ⟨_, harg⟩
  · exact Except.ok.inj (harg.symm.trans h) ▸ hlegal
  · cases harg.symm.trans h

theorem radixOperand_eq_ok {arg b : Field8} (h : radixOperand arg = .ok b) : b ∈ Config.bases := by
  rcases radixOperand_cases arg with ⟨hlegal, harg⟩ | ⟨_, harg⟩
  · exact Except.ok.inj (harg.symm.trans h) ▸ hlegal
  · cases harg.symm.trans h

/-- Every command keeps the invariant. -/
theorem exec_next_inv {i : Instr} (hs : s.Inv) (h : exec i s = .next t) : t.Inv := by
  obtain ⟨_, hws128⟩ := wsLegal_of_inv hs
  obtain ⟨hx, hy, hz, ht⟩ := stackMasked_of_inv hs
  cases i with
  | push data => exact commit_ok_next_inv s (inv_pushval hs (maskTo_lt hws128 data)) h
  | enter =>
    obtain rfl := Host.Outcome.next.inj h
    exact inv_completed (s := lift s) (inv_lift hs)
  | drop => exact commit_ok_next_inv s (inv_replaceTop hs hy) h
  | swap => exact commit_ok_next_inv s (inv_withStack hs hy hx hz ht) h
  | roll => exact commit_ok_next_inv s (inv_withStack hs hy hz ht hx) h
  | add => exact commit_ok_next_inv s (inv_applyArith hs (addResult_r_lt hws128 _ _)) h
  | sub => exact commit_ok_next_inv s (inv_applyArith hs (subResult_r_lt hws128 _ _)) h
  | mul => exact commit_ok_next_inv s (inv_applyArith hs (mulResult_r_lt hws128 _ _)) h
  | div => exact commit_map_next_inv hs (fun _ hq => inv_applyArith hs (divResult_r_lt hx hq)) h
  | and | or | xor => exact commit_ok_next_inv s (inv_applyBitwise hs _) h
  | not => exact commit_ok_next_inv s (inv_setX hs (maskTo_lt hws128 _)) h
  | sl => exact commit_ok_next_inv s (inv_setX hs (shl_lt hws128 _ _)) h
  | sr => exact commit_ok_next_inv s (inv_setX hs (shr_lt hx _)) h
  | asr => exact commit_ok_next_inv s (inv_setX hs (asr_lt hws128 _ _)) h
  | rl => exact commit_ok_next_inv s (inv_setX hs (rol_lt hws128 _ _)) h
  | rr => exact commit_ok_next_inv s (inv_setX hs (ror_lt hws128 _ _)) h
  | sly => exact commit_ok_next_inv s (inv_replaceTop hs (shl_lt hws128 _ _)) h
  | sry => exact commit_ok_next_inv s (inv_replaceTop hs (shr_lt hx _)) h
  | asry => exact commit_ok_next_inv s (inv_replaceTop hs (asr_lt hws128 _ _)) h
  | rly => exact commit_ok_next_inv s (inv_replaceTop hs (rol_lt hws128 _ _)) h
  | rry => exact commit_ok_next_inv s (inv_replaceTop hs (ror_lt hws128 _ _)) h
  | setbase arg => exact commit_map_next_inv hs (fun _ hb => inv_setBase hs (radixOperand_eq_ok hb)) h
  | setws arg => exact commit_map_next_inv hs (fun _ hn => inv_setWordSize hs (wordSizeOperand_eq_ok hn)) h
  | sto arg =>
    exact commit_map_next_inv hs (fun _ hi => inv_slotWrite hs (slotOperand_eq_ok hi) (maskTo_lt hws128 _)) h
  | stov arg data =>
    exact commit_map_next_inv hs (fun _ hi => inv_slotWrite hs (slotOperand_eq_ok hi) (maskTo_lt hws128 data)) h
  | rcl arg =>
    exact commit_map_next_inv hs (fun k hk => inv_pushval hs (slotsMasked_of_inv hs k (slotOperand_eq_ok hk))) h

/-- Every response to a sample keeps the invariant: RST sets the reset values, an illegal word raises its error, a legal
one executes its command. -/
theorem respond_next_inv {p : PortInput} (hs : s.Inv) (h : respond p s = .next t) : t.Inv := by
  rcases respond_cases p s with ⟨_, hr⟩ | ⟨_, _, hr⟩ | ⟨_, _, ⟨i, _, hr⟩ | ⟨e, _, hr⟩⟩
  · obtain rfl := Host.Outcome.next.inj (hr.symm.trans h)
    exact inv_reset
  · obtain rfl := Host.Outcome.next.inj (hr.symm.trans h)
    exact hs
  · exact exec_next_inv (s := accept s) hs (hr.symm.trans h)
  · obtain rfl := Host.Outcome.next.inj (hr.symm.trans h)
    exact inv_raiseError (s := accept s) hs .illegalCommand

/-- Settles O14: the reset state has the invariant; a step waits or responds to a sample, and the samples left are no
part of the invariant. -/
theorem stepKeepsLegalState : Obligations.StepKeepsLegalState := by
  refine ⟨inv_reset, fun s t hs h => ?_⟩
  rcases step_cases s with ⟨_, hstep⟩ | ⟨p, rest, _, hstep⟩
  · obtain rfl := Host.Outcome.next.inj (hstep.symm.trans h)
    exact hs
  · exact respond_next_inv (s := { s with host := rest }) hs (hstep.symm.trans h)

/-- Settles O13: the reset half of the invariant. -/
theorem resetStateIsLegal : Obligations.ResetStateIsLegal := inv_reset

end Sys2Proof.Machine
end

section
/-! ### One step, by the samples left (rules R70, R250, R251) -/

namespace Sys2Proof.Machine

variable {s : State} {p : PortInput} {rest : List PortInput}

theorem step_of_host_nil (h : s.host = []) : step s = .next s := by
  rw [step, h]

theorem step_of_host_cons (h : s.host = p :: rest) : step s = respond p { s with host := rest } := by
  rw [step, h]

theorem respond_of_rst (h : p.rst = true) (s : State) : respond p s = .next (resetEngine s) := if_pos h

/-- Settles O8: the sample is taken, the word executed on the state that has accepted it, and it decodes to `i`. -/
theorem stepRunsDecodedCommand : Obligations.StepRunsDecodedCommand := by
  intro s cmd data rest i hhost hdec
  rw [step_present hhost, executeCommand_of_ok hdec]
  rfl

theorem decode_of_decodeTableWord {nbits w : Nat} {i : Instr} (h : decodeTableWord nbits w = some i) :
    decode (commandOfTableWord nbits w).cmd (commandOfTableWord nbits w).data = .ok i := by
  unfold decodeTableWord at h
  split at h
  case h_1 j hdec => rw [hdec, Option.some.inj h]
  case h_2 => cases h

/-- Settles O9: the row's bits are presented as the next sample, which is that of a command that decodes. -/
theorem tableWordStepRunsInstr : Obligations.TableWordStepRunsInstr := by
  intro s nbits w i h
  exact stepRunsDecodedCommand (s.withFetchWord nbits w) _ _ s.host i rfl (decode_of_decodeTableWord h)

/-- Settles O10: no sample left, or the next one with RST and CMD_VALID low. -/
theorem engineWaitsWithoutCommand : Obligations.EngineWaitsWithoutCommand := by
  refine fun s => ⟨fun hnil => ⟨cmdReady_of_nil hnil, step_of_host_nil hnil⟩, ?_⟩
  intro p rest hcons hrst
  refine ⟨by rw [cmdReady_of_cons hcons, hrst, Bool.not_false], fun hvalid => ?_⟩
  rw [step_of_host_cons hcons]
  simp [respond, hrst, hvalid]

/-- Settles O11: RST is looked at before a command, and `resetEngine` keeps the samples alone. -/
theorem resetSampleGivesResetState : Obligations.ResetSampleGivesResetState := by
  intro s p rest hcons hrst
  refine ⟨by rw [cmdReady_of_cons hcons, hrst, Bool.not_true], ?_⟩
  rw [step_of_host_cons hcons, respond_of_rst hrst]
  rfl

theorem respond_answers (p : PortInput) (s : State) : ∃ t, respond p s = .next t := by
  rcases respond_cases p s with ⟨_, hr⟩ | ⟨_, _, hr⟩ | ⟨_, _, ⟨i, _, hr⟩ | ⟨_, _, hr⟩⟩
  · exact ⟨_, hr⟩
  · exact ⟨_, hr⟩
  · exact hr ▸ exec_answers i (accept s)
  · exact ⟨_, hr⟩

/-- Settles O15: a step waits or responds to a sample, and every response is a next state. -/
theorem everyStepAnswersNext : Obligations.EveryStepAnswersNext := by
  intro s
  rcases step_cases s with ⟨_, hstep⟩ | ⟨p, rest, _, hstep⟩
  · exact ⟨_, hstep⟩
  · exact hstep ▸ respond_answers p _

end Sys2Proof.Machine
end

section
/-! ### What no command reads (rules R24, R26, R29)

Two states that agree on the inputs of a command differ in BASE, C, V, ERR and CMD_DONE alone. No operation reads these
five: a command gives both states the same new values or leaves each its own. -/

namespace Sys2Proof.Machine

/-- Two commands side by side, from s and s': both answer, the next states agree on what a command reads, on ERR and on
CMD_DONE, and have the same flags and BASE where these were written. -/
def AnswerAlike (s s' : State) (o o' : Host.Outcome State Fault Refusal) : Prop :=
  ∃ t t', o = .next t ∧ o' = .next t' ∧ t.SameInputs t' ∧ t.err = t'.err ∧ t.cmdDone = t'.cmdDone ∧
    State.SameOrKept (fun u => (u.c, u.v)) s s' t t' ∧ State.SameOrKept State.base s s' t t'

/-- Two steps side by side, from s and s': as two commands, but ERR and CMD_DONE may stay as they were. -/
def StepAlike (s s' : State) (o o' : Host.Outcome State Fault Refusal) : Prop :=
  ∃ t t', o = .next t ∧ o' = .next t' ∧ t.SameInputs t' ∧
    State.SameOrKept (fun u => (u.c, u.v)) s s' t t' ∧ State.SameOrKept State.base s s' t t' ∧
    State.SameOrKept State.err s s' t t' ∧ State.SameOrKept State.cmdDone s s' t t'

variable {s s' u u' : State}

theorem sameInputs_refl (s : State) : s.SameInputs s := ⟨rfl, rfl, rfl, rfl, rfl, rfl, rfl, rfl⟩

/-- States that agree on what a command reads are one state up to BASE, C, V, ERR and CMD_DONE. -/
theorem exists_eq_of_sameInputs (h : s.SameInputs s') :
    ∃ base c v err done, s' = { s with base := base, c := c, v := v, err := err, cmdDone := done } := by
  obtain ⟨hx, hy, hz, ht, hmem, hws, hr, hhost⟩ := h
  exact ⟨s'.base, s'.c, s'.v, s'.err, s'.cmdDone, by rw [hx, hy, hz, ht, hmem, hws, hr, hhost]⟩

/-- The push primitive reads none of the five (rule R100). -/
theorem pushval_sameInputs (w : Word) (h : s.SameInputs s') : (pushval w s).SameInputs (pushval w s') := by
  obtain ⟨hx, hy, hz, ht, hmem, hws, hr, hhost⟩ := h
  cases hmark : s.r with
  | true =>
    rw [pushval_of_mark w hmark, pushval_of_mark w (hr ▸ hmark)]
    exact ⟨rfl, hy, hz, ht, hmem, hws, rfl, hhost⟩
  | false =>
    rw [pushval_of_no_mark w hmark, pushval_of_no_mark w (hr ▸ hmark)]
    exact ⟨rfl, hx, hy, hz, hmem, hws, rfl, hhost⟩

theorem pushval_flags (w : Word) (s : State) : ((pushval w s).c, (pushval w s).v) = (s.c, s.v) := by
  rcases pushval_cases w s with ⟨_, h⟩ | ⟨_, h⟩ <;> simp [h]

@[simp] theorem pushval_base (w : Word) (s : State) : (pushval w s).base = s.base := by
  rcases pushval_cases w s with ⟨_, h⟩ | ⟨_, h⟩ <;> simp [h]

/-- An error leaves both states their flags and BASE. -/
theorem answerAlike_raiseError (k : ErrorKind) (h : s.SameInputs s') :
    AnswerAlike s s' (.next (raiseError k s)) (.next (raiseError k s')) :=
  ⟨_, _, rfl, rfl, h, rfl, rfl, .inr ⟨rfl, rfl⟩, .inr ⟨rfl, rfl⟩⟩

/-- Completion gives both the same ERR, CMD_DONE and mark, and keeps what the effects agree on. -/
theorem answerAlike_commit_ok (h : u.SameInputs u') (hflags : State.SameOrKept (fun t => (t.c, t.v)) s s' u u')
    (hbase : State.SameOrKept State.base s s' u u') : AnswerAlike s s' (commit s (.ok u)) (commit s' (.ok u')) := by
  obtain ⟨hx, hy, hz, ht, hmem, hws, _, hhost⟩ := h
  exact ⟨_, _, rfl, rfl, ⟨hx, hy, hz, ht, hmem, hws, rfl, hhost⟩, rfl, rfl, hflags, hbase⟩

/-- A command that makes the same check from both states is alike when its effect is. -/
theorem answerAlike_commit_map {α : Type} {e : Except ErrorKind α} {f f' : α → State} (h : s.SameInputs s')
    (hf : ∀ a, AnswerAlike s s' (commit s (.ok (f a))) (commit s' (.ok (f' a)))) :
    AnswerAlike s s' (commit s (e.map f)) (commit s' (e.map f')) := by
  cases e with
  | ok a => exact hf a
  | error k => exact answerAlike_raiseError k h

theorem answerAlike_pushval (w : Word) (h : s.SameInputs s') :
    AnswerAlike s s' (commit s (.ok (pushval w s))) (commit s' (.ok (pushval w s'))) :=
  answerAlike_commit_ok (pushval_sameInputs w h) (.inr ⟨pushval_flags w s, pushval_flags w s'⟩)
    (.inr ⟨pushval_base w s, pushval_base w s'⟩)

/-- A command gives two states that differ in the five alone the same new values, or leaves each its own: the flags are
new after arithmetic and SETWS, BASE after SETBASE. -/
theorem exec_alike (i : Instr) (h : s.SameInputs s') : AnswerAlike s s' (exec i s) (exec i s') := by
  obtain ⟨base, c, v, err, done, rfl⟩ := exists_eq_of_sameInputs h
  cases i with
  | add | sub | mul => exact answerAlike_commit_ok (sameInputs_refl _) (.inl rfl) (.inr ⟨rfl, rfl⟩)
  | div | setws n =>
    exact answerAlike_commit_map h fun _ => answerAlike_commit_ok (sameInputs_refl _) (.inl rfl) (.inr ⟨rfl, rfl⟩)
  | setbase b => exact answerAlike_commit_map h fun _ => answerAlike_commit_ok h (.inr ⟨rfl, rfl⟩) (.inl rfl)
  | sto a | stov a d =>
    exact answerAlike_commit_map h fun _ =>
      answerAlike_commit_ok (sameInputs_refl _) (.inr ⟨rfl, rfl⟩) (.inr ⟨rfl, rfl⟩)
  | push d => exact answerAlike_pushval _ h
  | rcl a => exact answerAlike_commit_map h fun k => answerAlike_pushval (slotRead k s) h
  | enter => exact ⟨_, _, rfl, rfl, sameInputs_refl _, rfl, rfl, .inr ⟨rfl, rfl⟩, .inr ⟨rfl, rfl⟩⟩
  | _ => exact answerAlike_commit_ok (sameInputs_refl _) (.inr ⟨rfl, rfl⟩) (.inr ⟨rfl, rfl⟩)

theorem stepAlike_of_answerAlike {o o' : Host.Outcome State Fault Refusal} (h : AnswerAlike s s' o o') :
    StepAlike s s' o o' := by
  obtain ⟨t, t', ho, ho', hin, herr, hdone, hflags, hbase⟩ := h
  exact ⟨t, t', ho, ho', hin, hflags, hbase, .inl herr, .inl hdone⟩

/-- Waiting leaves both states as they are. -/
theorem stepAlike_wait (h : s.SameInputs s') : StepAlike s s' (.next s) (.next s') :=
  ⟨_, _, rfl, rfl, h, .inr ⟨rfl, rfl⟩, .inr ⟨rfl, rfl⟩, .inr ⟨rfl, rfl⟩, .inr ⟨rfl, rfl⟩⟩

/-- Reset gives both states the reset values (rule R250). -/
theorem stepAlike_reset (h : s.SameInputs s') : StepAlike s s' (.next (resetEngine s)) (.next (resetEngine s')) := by
  obtain ⟨_, _, _, _, _, _, _, hhost⟩ := h
  exact ⟨_, _, rfl, rfl, ⟨rfl, rfl, rfl, rfl, rfl, rfl, rfl, hhost⟩, .inl rfl, .inl rfl, .inl rfl, .inl rfl⟩

/-- A word is decoded without reading the state. -/
theorem executeCommand_alike (cmd : CmdWord) (data : Word) (h : s.SameInputs s') :
    AnswerAlike s s' (executeCommand cmd data s) (executeCommand cmd data s') := by
  cases hdec : decode cmd data with
  | ok i =>
    rw [executeCommand_of_ok hdec, executeCommand_of_ok hdec]
    exact exec_alike i h
  | error e =>
    rw [executeCommand_of_error hdec, executeCommand_of_error hdec]
    exact answerAlike_raiseError .illegalCommand h

theorem respond_alike (p : PortInput) (h : s.SameInputs s') : StepAlike s s' (respond p s) (respond p s') := by
  unfold respond
  split_ifs
  · exact stepAlike_reset h
  · exact stepAlike_of_answerAlike (executeCommand_alike (s := accept s) (s' := accept s') p.cmd p.data h)
  · exact stepAlike_wait h

/-- Two states with the same samples left take the same one. -/
theorem step_alike (h : s.SameInputs s') : StepAlike s s' (step s) (step s') := by
  have ⟨hx, hy, hz, ht, hmem, hws, hr, hhost⟩ := h
  cases hs : s.host with
  | nil =>
    rw [step_of_host_nil hs, step_of_host_nil (hhost ▸ hs)]
    exact stepAlike_wait h
  | cons p rest =>
    rw [step_of_host_cons hs, step_of_host_cons (hhost ▸ hs)]
    exact respond_alike p (s := { s with host := rest }) (s' := { s' with host := rest })
      ⟨hx, hy, hz, ht, hmem, hws, hr, rfl⟩

/-- Settles O19: `exec_alike` for a command, `step_alike` for a step. -/
theorem resultsNeverReadFlagsBaseOrErr : Obligations.ResultsNeverReadFlagsBaseOrErr :=
  ⟨fun i _ _ h => exec_alike i h, fun _ _ h => step_alike h⟩

end Sys2Proof.Machine
end

section
/-! ### Which commands write a part of the state (10_state.md)

The register access table and the writers of the flags, WS and BASE. A command that leaves a part alone does so whether
its operand check passes or fails, since neither completion nor an error writes the part. -/

namespace Sys2Proof.Machine

variable {i : Instr} {s t : State}

/-- A part of the state without R, ERR and CMD_DONE is kept by a command whose effect keeps it. -/
theorem commit_map_next_part {α β : Type} {e : Except ErrorKind α} {f : α → State} (part : State → β)
    (hpart : ∀ u r err done, part { u with r := r, err := err, cmdDone := done } = part u)
    (h : commit s (e.map f) = .next t) (hf : ∀ a, part (f a) = part s) : part t = part s := by
  cases e with
  | ok a =>
    obtain rfl := Host.Outcome.next.inj h
    exact (hpart (f a) false 0 true).trans (hf a)
  | error k =>
    obtain rfl := Host.Outcome.next.inj h
    exact hpart s s.r k.code true

@[simp] theorem pushval_ws (w : Word) (s : State) : (pushval w s).ws = s.ws := by
  rcases pushval_cases w s with ⟨_, h⟩ | ⟨_, h⟩ <;> simp [h]

/-- A command keeps both flags, or it is one of the five that write them (rule R26). -/
theorem exec_next_flags (h : exec i s = .next t) :
    (t.c, t.v) = (s.c, s.v) ∨ i = .add ∨ i = .sub ∨ i = .mul ∨ i = .div ∨ ∃ n, i = .setws n := by
  cases i with
  | add | sub | mul | div | setws n => exact .inr (by simp)
  | push data =>
    obtain rfl := Host.Outcome.next.inj h
    exact .inl (pushval_flags _ s)
  | rcl a =>
    exact .inl (commit_map_next_part (fun u => (u.c, u.v)) (fun _ _ _ _ => rfl) h fun _ => pushval_flags _ s)
  | setbase a | sto a | stov a d =>
    exact .inl (commit_map_next_part (fun u => (u.c, u.v)) (fun _ _ _ _ => rfl) h fun _ => rfl)
  | _ =>
    obtain rfl := Host.Outcome.next.inj h
    exact .inl rfl

/-- Settles O20: a flag that differs was not kept. -/
theorem onlyArithmeticAndSetwsWriteFlags : Obligations.OnlyArithmeticAndSetwsWriteFlags := by
  intro i s t h hne
  rcases exec_next_flags h with hkept | hwrites
  · obtain ⟨hc, hv⟩ := Prod.mk.inj hkept
    exact absurd hne (not_or.mpr ⟨not_not_intro hc, not_not_intro hv⟩)
  · exact hwrites

/-- A command keeps WS and BASE, or it is SETWS or SETBASE (rules R23, R24). -/
theorem exec_next_ws_base (h : exec i s = .next t) :
    (t.ws, t.base) = (s.ws, s.base) ∨ (∃ n, i = .setws n) ∨ ∃ b, i = .setbase b := by
  cases i with
  | setws n => exact .inr (.inl ⟨n, rfl⟩)
  | setbase b => exact .inr (.inr ⟨b, rfl⟩)
  | push data =>
    obtain rfl := Host.Outcome.next.inj h
    exact .inl (by simp)
  | rcl a =>
    exact .inl (commit_map_next_part (fun u => (u.ws, u.base)) (fun _ _ _ _ => rfl) h fun _ => by simp)
  | div | sto a | stov a d =>
    exact .inl (commit_map_next_part (fun u => (u.ws, u.base)) (fun _ _ _ _ => rfl) h fun _ => rfl)
  | _ =>
    obtain rfl := Host.Outcome.next.inj h
    exact .inl rfl

/-- Settles O21: SETWS and SETBASE write their ARG when it is legal, and nothing of the two when it is not. -/
theorem onlyConfigurationWritesWsAndBase : Obligations.OnlyConfigurationWritesWsAndBase := by
  intro i s t h
  rcases exec_next_ws_base h with hkept | ⟨n, rfl⟩ | ⟨b, rfl⟩
  · obtain ⟨hws, hbase⟩ := Prod.mk.inj hkept
    exact ⟨absurd hws, absurd hbase⟩
  · by_cases hn : 1 ≤ n.toNat ∧ n.toNat ≤ 128
    · obtain rfl := Host.Outcome.next.inj ((exec_setws_ok s hn).symm.trans h)
      exact ⟨fun _ => ⟨rfl, hn⟩, absurd rfl⟩
    · obtain rfl := Host.Outcome.next.inj ((exec_setws_error s hn).symm.trans h)
      exact ⟨absurd rfl, absurd rfl⟩
  · by_cases hb : b ∈ Config.bases
    · obtain rfl := Host.Outcome.next.inj ((exec_setbase_ok s hb).symm.trans h)
      exact ⟨absurd rfl, fun _ => ⟨rfl, mem_bases_iff.mp hb⟩⟩
    · obtain rfl := Host.Outcome.next.inj ((exec_setbase_error s hb).symm.trans h)
      exact ⟨absurd rfl, absurd rfl⟩

/-- SETBASE, STO and STOV: the commands that write no stack register. -/
def WritesNoStack (i : Instr) : Prop :=
  (∃ b, i = .setbase b) ∨ (∃ a, i = .sto a) ∨ ∃ a d, i = .stov a d

theorem not_writesNoStack_iff :
    ¬WritesNoStack i ↔ (∀ b, i ≠ .setbase b) ∧ (∀ a, i ≠ .sto a) ∧ ∀ a d, i ≠ .stov a d := by
  simp only [WritesNoStack, not_or, not_exists, ne_eq]

theorem exec_next_stack (hi : WritesNoStack i) (h : exec i s = .next t) :
    t.x = s.x ∧ t.y = s.y ∧ t.z = s.z ∧ t.t = s.t := by
  have hstack : (t.x, t.y, t.z, t.t) = (s.x, s.y, s.z, s.t) := by
    rcases hi with ⟨b, rfl⟩ | ⟨a, rfl⟩ | ⟨a, d, rfl⟩ <;>
      exact commit_map_next_part (fun u => (u.x, u.y, u.z, u.t)) (fun _ _ _ _ => rfl) h fun _ => rfl
  simpa only [Prod.mk.injEq] using hstack

/-- A unary operation works on X in place (rules R154, R161). -/
theorem exec_next_below_x_of_unary (hi : i ∈ [.not, .sl, .sr, .asr, .rl, .rr]) (h : exec i s = .next t) :
    t.y = s.y ∧ t.z = s.z ∧ t.t = s.t := by
  simp only [List.mem_cons, List.not_mem_nil, or_false] at hi
  rcases hi with rfl | rfl | rfl | rfl | rfl | rfl <;> (obtain rfl := Host.Outcome.next.inj h; exact ⟨rfl, rfl, rfl⟩)

/-- Under the mark PUSH and RCL replace X alone (rule R100); a RCL that raises an error writes no register. -/
theorem exec_next_below_x_of_mark (hi : (∃ d, i = .push d) ∨ ∃ a, i = .rcl a) (hr : s.r = true)
    (h : exec i s = .next t) : t.y = s.y ∧ t.z = s.z ∧ t.t = s.t := by
  by_cases herr : t.err = 0
  · obtain ⟨w, rfl⟩ := exec_push_or_rcl_next h herr hi
    rw [pushval_of_mark w hr]
    exact ⟨rfl, rfl, rfl⟩
  · obtain ⟨k, rfl⟩ := exec_next_of_err_ne_zero h herr
    exact ⟨rfl, rfl, rfl⟩

/-- A command keeps T, or it is one that lifts the stack, ROLL or SETWS. -/
theorem exec_next_t (h : exec i s = .next t) :
    t.t = s.t ∨ i = .enter ∨ i = .roll ∨ (∃ n, i = .setws n) ∨
      (((∃ d, i = .push d) ∨ ∃ a, i = .rcl a) ∧ s.r = false) := by
  have hpush (hi : (∃ d, i = .push d) ∨ ∃ a, i = .rcl a) : t.t = s.t ∨ s.r = false := by
    cases hr : s.r with
    | false => exact .inr rfl
    | true =>
      obtain ⟨_, _, hkept⟩ := exec_next_below_x_of_mark hi hr h
      exact .inl hkept
  cases i with
  | enter | roll | setws n => exact .inr (by simp)
  | push d => exact (hpush (.inl ⟨d, rfl⟩)).imp_right fun hr => by simp [hr]
  | rcl a => exact (hpush (.inr ⟨a, rfl⟩)).imp_right fun hr => by simp [hr]
  | div | setbase b | sto a | stov a d =>
    exact .inl (commit_map_next_part State.t (fun _ _ _ _ => rfl) h fun _ => rfl)
  | _ =>
    obtain rfl := Host.Outcome.next.inj h
    exact .inl rfl

/-- What the table leaves out of the writers of Y leaves out all three registers below X. -/
theorem exec_next_writes_below_x (h : exec i s = .next t) (hne : ¬(t.y = s.y ∧ t.z = s.z ∧ t.t = s.t)) :
    i ∉ [.not, .sl, .sr, .asr, .rl, .rr] ∧ (∀ b, i ≠ .setbase b) ∧ (∀ a, i ≠ .sto a) ∧ (∀ a d, i ≠ .stov a d) ∧
      (((∃ d, i = .push d) ∨ ∃ a, i = .rcl a) → s.r = false) := by
  have hstack : ¬WritesNoStack i := fun hi => hne (exec_next_stack hi h).2
  obtain ⟨hsetbase, hsto, hstov⟩ := not_writesNoStack_iff.mp hstack
  refine ⟨fun hi => hne (exec_next_below_x_of_unary hi h), hsetbase, hsto, hstov, fun hi => ?_⟩
  exact Bool.eq_false_iff.mpr fun hr => hne (exec_next_below_x_of_mark hi hr h)

/-- Settles O22: what the table leaves out of the writers of a register keeps it; ENTER keeps X besides, SWAP Z. -/
theorem stackRegisterWriters : Obligations.StackRegisterWriters := by
  intro i s t h
  refine ⟨fun hx => ⟨?enter, ?stores⟩, fun hy => ?y, fun hz => ?z, (exec_next_t h).resolve_left⟩
  case enter =>
    rintro rfl
    obtain rfl := Host.Outcome.next.inj h
    exact hx rfl
  case stores => exact not_writesNoStack_iff.mp fun hi => hx (exec_next_stack hi h).1
  case y => exact exec_next_writes_below_x h fun ⟨hkept, _⟩ => hy hkept
  case z =>
    obtain ⟨hunary, hothers⟩ := exec_next_writes_below_x h fun ⟨_, hkept, _⟩ => hz hkept
    have hswap : i ≠ .swap := by
      rintro rfl
      obtain rfl := Host.Outcome.next.inj h
      exact hz rfl
    exact ⟨List.not_mem_cons_of_ne_of_not_mem hswap hunary, hothers⟩

end Sys2Proof.Machine
end

section
/-! ### Laws of the arithmetic commands (41_arithmetic.md, sections 1 and 3) -/

namespace Sys2Proof.Machine

variable {n : Nat} {x : Word} {i : Instr} {s t : State}

/-! #### The common shape (rule R120) -/

/-- An arithmetic command without error gives a masked result the common shape. -/
theorem exec_arith_next (hi : i ∈ [.add, .sub, .mul, .div]) (hws : s.ws.toNat ≤ 128) (hx : s.x.toNat < 2 ^ s.ws.toNat)
    (h : exec i s = .next t) (herr : t.err = 0) :
    ∃ a : ArithResult, a.r.toNat < 2 ^ s.ws.toNat ∧ t = completed (applyArith s a) := by
  simp only [List.mem_cons, List.not_mem_nil, or_false] at hi
  rcases hi with rfl | rfl | rfl | rfl
  · exact ⟨_, addResult_r_lt hws s.x s.y, (Host.Outcome.next.inj h).symm⟩
  · exact ⟨_, subResult_r_lt hws s.x s.y, (Host.Outcome.next.inj h).symm⟩
  · exact ⟨_, mulResult_r_lt hws s.x s.y, (Host.Outcome.next.inj h).symm⟩
  · rcases divResult_cases s.x s.y with ⟨hy, hq⟩ | ⟨hy, _⟩
    · rw [exec_div_ok s hy] at h
      exact ⟨_, divResult_r_lt hx hq, (Host.Outcome.next.inj h).symm⟩
    · rw [exec_div_zero s hy] at h
      obtain rfl := Host.Outcome.next.inj h
      exact absurd herr (code_range .divideByZero).1

/-- Settles O32: the shape is `completed_applyArith` on a masked result. -/
theorem arithmeticShape : Obligations.ArithmeticShape := by
  rintro i s t hi ⟨_, hws128⟩ ⟨hx, _⟩ h herr
  obtain ⟨a, hlt, rfl⟩ := exec_arith_next hi hws128 hx h herr
  exact ⟨hlt, completed_applyArith s a⟩

/-! #### Exchanged operands -/

theorem addResult_comm (n : Nat) (a b : Word) : addResult n a b = addResult n b a := by
  simp only [addResult, Nat.add_comm a.toNat, Int.add_comm (sgn n a)]

theorem mulResult_comm (n : Nat) (a b : Word) : mulResult n a b = mulResult n b a := by
  simp only [mulResult, Nat.mul_comm a.toNat, Int.mul_comm (sgn n a)]

/-- The common shape keeps neither operand, so it does not matter which of the two was in X. -/
theorem applyArith_exchanged (s : State) (a : ArithResult) :
    applyArith { s with x := s.y, y := s.x } a = applyArith s a := rfl

/-- Settles O33: the F of ADD and MUL are commutative. -/
theorem addAndMulCommute : Obligations.AddAndMulCommute := by
  intro s
  rw [exec_add, exec_add, exec_mul, exec_mul, applyArith_exchanged, applyArith_exchanged]
  exact ⟨by rw [addResult_comm], by rw [mulResult_comm]⟩

/-! #### A zero operand -/

theorem sgn_zero (n : Nat) : sgn n 0#128 = 0 := by simp [sgn, signBit]

theorem inSRange_zero (n : Nat) : inSRange n 0 = true := by
  have hpos := Nat.two_pow_pos (n - 1)
  exact inSRange_iff.mpr (by omega)

theorem inSRange_sgn (hn : 1 ≤ n) (hx : x.toNat < 2 ^ n) : inSRange n (sgn n x) = true :=
  inSRange_iff.mpr (sgn_mem_range hn hx)

theorem ofNat_mod_eq_self (hx : x.toNat < 2 ^ n) : BitVec.ofNat 128 (x.toNat % 2 ^ n) = x := by
  rw [Nat.mod_eq_of_lt hx, BitVec.ofNat_toNat, BitVec.setWidth_eq]

theorem addResult_zero (hn : 1 ≤ n) (hx : x.toNat < 2 ^ n) : addResult n x 0 = ⟨x, false, false⟩ := by
  simp [addResult, sgn_zero, inSRange_sgn hn hx, ofNat_mod_eq_self hx, hx]

theorem subResult_zero (hn : 1 ≤ n) (hn128 : n ≤ 128) (hx : x.toNat < 2 ^ n) :
    subResult n x 0 = ⟨x, false, false⟩ := by
  have hwrap : wrap n x.toNat = x := (wrap_congr (sgn_emod n x)).symm.trans (wrap_sgn hn128 hx)
  simp [subResult, sgn_zero, inSRange_sgn hn hx, hwrap]

theorem mulResult_zero (n : Nat) (x : Word) : mulResult n x 0 = ⟨0, false, false⟩ := by
  simp [mulResult, sgn_zero, inSRange_zero]

/-- Settles O34: each F with a zero operand, in the common shape. -/
theorem arithmeticZeroLaws : Obligations.ArithmeticZeroLaws := by
  rintro s ⟨hws, hws128⟩ ⟨hx, _⟩
  constructor
  · intro hy
    rw [exec_add, exec_sub, exec_mul, hy, addResult_zero hws hx, subResult_zero hws hws128 hx, mulResult_zero]
    exact ⟨rfl, rfl, rfl⟩
  · intro hzero hy
    have hq : BitVec.ofNat 128 (s.x.toNat / s.y.toNat) = s.x := by simp [hzero]
    rw [exec_div_ok s hy, hq]
    rfl

end Sys2Proof.Machine
end

section
/-! ### Rotations bit by bit (rules R160, R166, R167)

Bit i of a rotation right is the bit `k` places above it, around n. A rotation left is one right by the rest of the
word size, so it moves bit i up by `k` places, around n. -/

namespace Sys2Proof.Machine

variable {n i j : Nat} {x : Word}

/-- An n-bit value has no bit at n or above. -/
theorem getLsbD_of_lt (hx : x.toNat < 2 ^ n) (hi : n ≤ i) : x.getLsbD i = false :=
  Nat.testBit_lt_two_pow (hx.trans_le (Nat.pow_le_pow_right (by decide) hi))

/-- Two n-bit values are equal when their bits below n are. -/
theorem eq_of_getLsbD_below {y : Word} (hx : x.toNat < 2 ^ n) (hy : y.toNat < 2 ^ n)
    (h : ∀ i < n, x.getLsbD i = y.getLsbD i) : x = y := by
  apply BitVec.eq_of_getLsbD_eq
  intro i _
  rcases Nat.lt_or_ge i n with hlt | hge
  · exact h i hlt
  · rw [getLsbD_of_lt hx hge, getLsbD_of_lt hy hge]

theorem getLsbD_ror (hn : n ≤ 128) (hx : x.toNat < 2 ^ n) (k : Nat) (hi : i < n) :
    (ror n x k).getLsbD i = x.getLsbD ((i + k) % n) := by
  have hk : k % n < n := Nat.mod_lt k (Nat.zero_lt_of_lt hi)
  rw [ror, getLsbD_maskTo hn, BitVec.getLsbD_or, BitVec.getLsbD_ushiftRight, BitVec.getLsbD_shiftLeft,
    ← Nat.add_mod_mod]
  rcases Nat.lt_or_ge (i + k % n) n with hlt | hge
  · rw [Nat.mod_eq_of_lt hlt]
    simp [hi, show i < n - k % n by omega, Nat.add_comm]
  · have hwrap : (i + k % n) % n = i - (n - k % n) := by
      rw [Nat.mod_eq_sub_mod hge, Nat.mod_eq_of_lt (by omega)]
      omega
    have hnone : x.getLsbD (k % n + i) = false := getLsbD_of_lt hx (by omega)
    rw [hwrap, hnone]
    simp [hi, show i < 128 by omega, show ¬i < n - k % n by omega]

/-- To go on from an amount by the rest of the word size is to go all the way around. -/
theorem add_add_rest_mod (hi : i < n) (k : Nat) : (i + (k + (n - k % n))) % n = i := by
  have hk : k % n < n := Nat.mod_lt k (Nat.zero_lt_of_lt hi)
  have hturns : k + (n - k % n) = n * (k / n + 1) := by
    rw [Nat.mul_succ]
    have hdiv := Nat.div_add_mod k n
    omega
  rw [hturns, Nat.add_mul_mod_self_left, Nat.mod_eq_of_lt hi]

/-- A rotation left is the rotation right by the rest of the word size. -/
theorem rol_eq_ror (hn : 1 ≤ n) (hn128 : n ≤ 128) (hx : x.toNat < 2 ^ n) (k : Nat) :
    rol n x k = ror n x (n - k % n) := by
  have hamount : (n - (n - k % n) % n) % n = k % n := by
    have hk : k % n < n := Nat.mod_lt k hn
    rcases Nat.eq_zero_or_pos (k % n) with hzero | hpos
    · rw [hzero, Nat.sub_zero, Nat.mod_self, Nat.sub_zero, Nat.mod_self]
    · rw [Nat.mod_eq_of_lt (Nat.sub_lt hn hpos), Nat.sub_sub_self hk.le, Nat.mod_mod]
  rw [ror_eq_rol hn hn128 hx, rol, rol, hamount]

theorem getLsbD_rol (hn : n ≤ 128) (hx : x.toNat < 2 ^ n) (k : Nat) (hi : i < n) :
    (rol n x k).getLsbD i = x.getLsbD ((i + (n - k % n)) % n) := by
  rw [rol_eq_ror (Nat.one_le_of_lt hi) hn hx, getLsbD_ror hn hx _ hi]

/-- Settles O40: the bits by `getLsbD_rol` and `getLsbD_ror`; the two indices of a bit that is rotated there and back
differ by whole turns. -/
theorem rotationsPermuteBits : Obligations.RotationsPermuteBits := by
  intro n x k hn hn128 hx
  have hmod (m : Nat) : m % n < n := Nat.mod_lt m hn
  have hup : ∀ i < n, (rol n x k).getLsbD ((i + k) % n) = x.getLsbD i := by
    intro i hi
    rw [getLsbD_rol hn128 hx k (hmod _), Nat.mod_add_mod, Nat.add_assoc, add_add_rest_mod hi]
  refine ⟨hup, fun i hi => getLsbD_ror hn128 hx k hi, ?rightOfLeft, ?leftOfRight⟩
  case rightOfLeft =>
    refine eq_of_getLsbD_below (ror_lt hn128 _ k) hx fun i hi => ?_
    rw [getLsbD_ror hn128 (rol_lt hn128 x k) k hi, hup i hi]
  case leftOfRight =>
    refine eq_of_getLsbD_below (rol_lt hn128 _ k) hx fun i hi => ?_
    rw [getLsbD_rol hn128 (ror_lt hn128 x k) k hi, getLsbD_ror hn128 hx k (hmod _), Nat.mod_add_mod, Nat.add_assoc,
      Nat.add_comm _ k, add_add_rest_mod hi]

end Sys2Proof.Machine
end

section
/-! ### Runs of commands (rules R51, R62, R258)

A slot keeps its value over a run of commands that spare it, so a RCL gives what was stored. Two commands in a row that
write the same value twice, or write different parts of the state, are compared effect by effect. -/

namespace Sys2Proof.Machine

variable {s t : State} {k : Nat}

@[simp] theorem pushval_x (w : Word) (s : State) : (pushval w s).x = w := by
  rcases pushval_cases w s with ⟨_, h⟩ | ⟨_, h⟩ <;> simp [h]

/-- A run of two parts is the second part run on what the first leaves. -/
theorem execAll_append_of_next {is : List Instr} (h : execAll is s = .next t) (rest : List Instr) :
    execAll (is ++ rest) s = execAll rest t := by
  induction is generalizing s with
  | nil => rw [List.nil_append, Host.Outcome.next.inj h]
  | cons i is ih =>
    obtain ⟨u, hu⟩ := exec_answers i s
    rw [execAll_cons_of_next hu] at h
    rw [List.cons_append, execAll_cons_of_next hu, ih h]

/-- A run of commands that do not write a slot completes and leaves the slot's value (rule R62). -/
theorem execAll_next_slotRead {is : List Instr} (hspared : ∀ i ∈ is, ¬WritesSlot i k) (s : State) :
    ∃ t, execAll is s = .next t ∧ slotRead k t = slotRead k s := by
  induction is generalizing s with
  | nil => exact ⟨s, rfl, rfl⟩
  | cons i is ih =>
    obtain ⟨hi, his⟩ := List.forall_mem_cons.mp hspared
    obtain ⟨u, hu⟩ := exec_answers i s
    obtain ⟨t, hrun, hkept⟩ := ih his u
    exact ⟨t, (execAll_cons_of_next hu is).trans hrun, hkept.trans (exec_next_slotRead hi hu)⟩

/-- RCL i after commands that do not write slot i gives X what the slot held at their start. -/
theorem execAll_append_rcl {is : List Instr} {arg : Field8} (harg : arg.toNat < 16)
    (hspared : ∀ i ∈ is, ¬WritesSlot i arg.toNat) (s : State) :
    ∃ t, execAll (is ++ [.rcl arg]) s = .next t ∧ t.x = slotRead arg.toNat s := by
  obtain ⟨u, hrun, hkept⟩ := execAll_next_slotRead hspared s
  rw [execAll_append_of_next hrun, execAll_cons_of_next (exec_rcl_ok u harg)]
  exact ⟨_, rfl, by rw [completed_x, pushval_x, hkept]⟩

/-- Settles O50: a STO i in a legal state leaves slot i the X that it had. -/
theorem recallGivesWhatWasStored : Obligations.RecallGivesWhatWasStored := by
  refine ⟨fun _ _ s harg hspared => execAll_append_rcl (Nat.lt_succ_of_le harg) hspared s, ?_⟩
  intro between arg s harg hinv hspared
  have hlt := Nat.lt_succ_of_le harg
  have hsto := exec_sto_ok s hlt
  rw [maskTo_x (wsLegal_of_inv hinv) (stackMasked_of_inv hinv)] at hsto
  obtain ⟨t, hrun, hx⟩ := execAll_append_rcl hlt hspared (completed (slotWrite arg.toNat s.x s))
  rw [slotRead_completed, slotRead_slotWrite_same s.x (memory_wf_of_inv hinv)] at hx
  exact ⟨t, (execAll_cons_of_next hsto _).trans hrun, hx⟩

/-- In a canonical list, to write what a slot holds changes nothing. -/
theorem Memory.write_of_read_eq {m : Memory} {i : Nat} {v : Word} : ∀ {lo : Nat}, Memory.wfFrom lo m = true →
    Memory.read m i = v → Memory.write m i v = m := by
  induction m with
  | nil =>
    rintro _ _ rfl
    exact if_pos rfl
  | cons e rest ih =>
    obtain ⟨j, w⟩ := e
    intro lo hwf hread
    obtain ⟨_, _, hw, hrest⟩ := (Memory.wfFrom_cons lo j w rest).mp hwf
    rw [Memory.read] at hread
    rcases Nat.lt_trichotomy i j with hlt | rfl | hgt
    · rw [if_neg hlt.ne, Memory.read_below hrest (by omega)] at hread
      rw [Memory.write, if_pos hlt, if_pos hread.symm]
    · rw [if_pos rfl] at hread
      rw [Memory.write, if_neg (Nat.lt_irrefl i), if_pos rfl, if_neg (hread ▸ hw), hread]
    · rw [if_neg hgt.ne'] at hread
      rw [Memory.write, if_neg hgt.not_gt, if_neg hgt.ne', ih hrest hread]

theorem slotWrite_of_slotRead_eq {i : Nat} {w : Word} (hwf : Memory.wf s.mem = true) (h : slotRead i s = w) :
    slotWrite i w s = s := by
  rw [slotWrite, Memory.write_of_read_eq hwf h]

/-- Settles O51: the second STO writes what the slot holds already, or raises the same error. -/
theorem repeatedStoLeavesSameState : Obligations.RepeatedStoLeavesSameState := by
  intro arg s hwf
  rcases Nat.lt_or_ge arg.toNat 16 with hlt | hge
  · have hsame (w : Word) :
        slotWrite arg.toNat w (completed (slotWrite arg.toNat w s)) = completed (slotWrite arg.toNat w s) :=
      slotWrite_of_slotRead_eq (Memory.write_wf w hlt hwf) (slotRead_slotWrite_same w hwf)
    rw [execAll_cons_of_next (exec_sto_ok s hlt), execAll_cons_of_next (exec_sto_ok _ hlt), exec_sto_ok s hlt]
    rw [execAll, completed_ws, completed_x, slotWrite_ws, slotWrite_x, hsame]
    rfl
  · rw [execAll_cons_of_next (exec_sto_error s hge), execAll_cons_of_next (exec_sto_error _ hge), exec_sto_error s hge]
    rfl

theorem argLegal_setws_iff {n : Field8} : (Instr.setws n).argLegal = true ↔ 1 ≤ n.toNat ∧ n.toNat ≤ 128 := by
  rw [Instr.argLegal, Bool.and_eq_true, decide_eq_true_iff, decide_eq_true_iff]
  rfl

theorem argLegal_setbase_iff {b : Field8} : (Instr.setbase b).argLegal = true ↔ b ∈ Config.bases :=
  List.contains_iff_mem

/-- Settles O44: the two effects write different parts of the state, so they commute. -/
theorem configurationOrderDoesNotMatter : Obligations.ConfigurationOrderDoesNotMatter := by
  intro n b s hsize hradix
  have hn : 1 ≤ n.toNat ∧ n.toNat ≤ 128 := argLegal_setws_iff.mp hsize
  have hb : b ∈ Config.bases := argLegal_setbase_iff.mp hradix
  refine ⟨completed (setBase b (setWordSize n s)), ?sizeFirst, ?radixFirst, rfl, rfl⟩
  case sizeFirst =>
    rw [execAll_cons_of_next (exec_setws_ok s hn), execAll_cons_of_next (exec_setbase_ok _ hb)]
    rfl
  case radixFirst =>
    rw [execAll_cons_of_next (exec_setbase_ok s hb), execAll_cons_of_next (exec_setws_ok _ hn)]
    rfl

end Sys2Proof.Machine
end

section
/-! ### Lines of assembly text (rules R71, R74, R80) -/

namespace Sys2Proof.Machine

/-- Settles O54: closed facts about twenty-seven fixed lines, each assembled by evaluation. -/
theorem assemblerEncodesEachFormat : Obligations.AssemblerEncodesEachFormat := by
  unfold Obligations.AssemblerEncodesEachFormat
  decide

end Sys2Proof.Machine
end
